-- ==== Sys2Proof/Word.lean ====
section
/-! DEFINITION. The word types of LSBP: the widths of its registers and cells (spec/00_scope.md R5, 20_memory.md R50). -/

namespace Sys2Proof

/-- The value the register port moves and the command word: `REGW = 32` bits (R5, R28, R70). -/
abbrev Word := BitVec 32

/-- `WIDTH` and `HEIGHT`: `DIMW = 16` bits (R5, R25). -/
abbrev Dim := BitVec 16

/-- A channel value, one cell of `PIX`: 8 bits, so 0 to `CHMAX = 255` (R6, R50). -/
abbrev Channel := BitVec 8

/-- One bit of a bit sequence, one cell of `BIT` (R50). -/
abbrev Bit := BitVec 1

/-- A character, which is nothing but its code point (R12, R59). A `MSG` cell has `CPW <= 32` bits (R5);
it is held in 32 with the invariant that it lies below `2^CPW`. -/
abbrev CodePoint := BitVec 32

end Sys2Proof
end

