-- ==== Sys2Proof/Syntax.lean ====
section
/-! DEFINITION. The ten commands of LSBP, one constructor per row of spec/opcode_table.json (30_encoding.md R72). No
command has an operand in its word (R71). -/

namespace Sys2Proof

/-- The command set (R72). -/
inductive Instr where
  /-- `NOP`, R138. -/
  | nop
  /-- `CAP`, R100. -/
  | cap
  /-- `PACK`, R91. -/
  | pack
  /-- `UNPACK`, R93. -/
  | unpack
  /-- `ENCB`, R106. -/
  | encb
  /-- `DECB`, R116. -/
  | decb
  /-- `FRAME`, R121. -/
  | frame
  /-- `UNFRAME`, R124. -/
  | unframe
  /-- `HIDE`, R130. -/
  | hide
  /-- `REVEAL`, R132. -/
  | reveal
  deriving DecidableEq, Repr

end Sys2Proof
end

