-- ==== Sys2Proof/WellFormed.lean ====
section
/-! DEFINITION. Well-formedness of a command word (spec/30_encoding.md R70, R73). -/

namespace Sys2Proof

/-- Check 1 of a command word: the reserved field `RSV`, bits 31:4, is 0 (R70). -/
abbrev rsvClear (c : Word) : Prop := c.toNat / 16 = 0

/-- Check 2 of a command word: `OP`, bits 3:0, is the number of a command, 0 to 9 (R72). -/
abbrev opDefined (c : Word) : Prop := c.toNat % 16 ≤ 9

/-- A command word is legal when both checks pass; every other word is illegal (R73). -/
abbrev legalWord (c : Word) : Prop := rsvClear c ∧ opDefined c

/-- Well-formedness of a command as syntax: a command has no field (R71), so there is nothing to check. -/
abbrev Instr.wellFormed (_ : Instr) : Prop := True

end Sys2Proof
end

