-- ==== Sys2Proof/Decode.lean ====
section
/-! DEFINITION. The decoder and the encoder of the one command format (spec/30_encoding.md R70, R72, R73). -/

namespace Sys2Proof

/-- Why a word is no command (R73). -/
inductive Illegal where
  /-- `RSV`, bits 31:4, is not 0. -/
  | reservedBits
  /-- `RSV` is 0 and `OP` is 10 to 15. -/
  | reservedOp
  deriving DecidableEq, Repr

/-- What a word is: a command, or illegal by name. -/
inductive Decoded where
  | instr (i : Instr)
  | illegal (why : Illegal)
  deriving DecidableEq, Repr

/-- Field `OP`, bits 3:0 (R70). -/
def opField (c : Word) : BitVec 4 := c.extractLsb' 0 4

/-- Field `RSV`, bits 31:4 (R70). -/
def rsvField (c : Word) : BitVec 28 := c.extractLsb' 4 28

/-- The command of an operation number (R72). -/
def instrOfOp (op : BitVec 4) : Option Instr :=
  match op.toNat with
  | 0 => some .nop
  | 1 => some .cap
  | 2 => some .pack
  | 3 => some .unpack
  | 4 => some .encb
  | 5 => some .decb
  | 6 => some .frame
  | 7 => some .unframe
  | 8 => some .hide
  | 9 => some .reveal
  | _ => none

/-- The decoder, total on every word (R72, R73). -/
def decode (c : Word) : Decoded :=
  if rsvField c ≠ 0 then .illegal .reservedBits
  else
    match instrOfOp (opField c) with
    | some i => .instr i
    | none => .illegal .reservedOp

/-- The operation number of a command (R72). -/
def opOf : Instr → BitVec 4
  | .nop => 0
  | .cap => 1
  | .pack => 2
  | .unpack => 3
  | .encb => 4
  | .decb => 5
  | .frame => 6
  | .unframe => 7
  | .hide => 8
  | .reveal => 9

/-- The word of a command: `RSV = 0` above `OP` (R70). -/
def encode (i : Instr) : Word := 0#28 ++ opOf i

/-- The command the decoder reads from the word whose low `nbits` bits are `w` and whose other bits are 0. -/
def decodeTableWord (nbits w : Nat) : Option Instr :=
  match decode (BitVec.ofNat 32 (w % 2 ^ nbits)) with
  | .instr i => some i
  | .illegal _ => none

end Sys2Proof
end

