-- ==== Sys2Proof/Config.lean ====
section
/-! DEFINITION. What an implementation of LSBP fixes (the open parameters of spec/00_scope.md R5) and the free values
of what the spec leaves unspecified (10_state.md R37, 93_implementation_defined.md U5). -/

namespace Sys2Proof

/-- The five OPEN parameters of R5. The fixed ones (`REGW`, `DIMW`, `SCH = 3`, `CHB = 8`, `CHMAX`) are the widths of
Word.lean and the literals of the rules that use them; the bus placements of R64 are used by no rule. -/
structure Config where
  /-- `NCH`: channels stored per pixel in `PIX`. -/
  nch : Nat
  /-- `CPW`: width of a `MSG` cell in bits. -/
  cpw : Nat
  /-- `PIXSIZE`: number of cells of `PIX`. -/
  pixSize : Nat
  /-- `BITSIZE`: number of cells of `BIT`. -/
  bitSize : Nat
  /-- `MSGSIZE`: number of cells of `MSG`. -/
  msgSize : Nat
  deriving DecidableEq, Repr

/-- The constraints R5 puts on the parameters, and nothing more. -/
abbrev Config.ok (c : Config) : Prop :=
  3 ≤ c.nch ∧ 8 ≤ c.cpw ∧ c.cpw ≤ 32 ∧ c.bitSize ≤ 2 ^ 32 - 1 ∧ c.msgSize ≤ 2 ^ 32 - 1

/-- The test configuration of 95_test_vectors.md (the column "test value" of R5). DESIGN CHOICE (log entry 1): the
configuration `State.reset` is written with; it is not a default of the hardware. -/
def Config.test : Config :=
  { nch := 3, cpw := 16, pixSize := 4096, bitSize := 2048, msgSize := 256 }

/-- FREE VALUE (log entry 2): the content of cell `a` of `PIX` that nothing has written since reset number `epoch`. -/
opaque Config.freePix (epoch a : Nat) : Channel

/-- FREE VALUE (log entry 2): the same for `BIT`. -/
opaque Config.freeBit (epoch a : Nat) : Bit

/-- FREE VALUE (log entry 2): the same for `MSG`, before it is cut to the `CPW` bits of a cell. -/
opaque Config.freeMsg (epoch a : Nat) : CodePoint

end Sys2Proof
end

