-- ==== Sys2Proof/Machine/Memory.lean ====
section
/-! DEFINITION. A cell-addressed memory (spec/20_memory.md R50, R62): a list of (address, value) pairs in one canonical
form. -/

namespace Sys2Proof.Machine

/-- A memory of `w`-bit cells: the cells that were written, addresses strictly rising. A cell that is not listed holds
no stored value (log entry 2); with `w = 8` this is a list of `Host.Cell`. -/
abbrev Memory (w : Nat) := List (Nat × BitVec w)

/-- The stored value of cell `a`, `none` where nothing has written it. -/
def Memory.get? {w : Nat} : Memory w → Nat → Option (BitVec w)
  | [], _ => none
  | (b, v) :: rest, a => if a = b then some v else Memory.get? rest a

/-- `MemWrite` of one cell (R11): plain storage (R62), inserted at its place in the order. -/
def Memory.write {w : Nat} : Memory w → Nat → BitVec w → Memory w
  | [], a, v => [(a, v)]
  | (b, u) :: rest, a, v =>
    if a < b then (a, v) :: (b, u) :: rest
    else if a = b then (a, v) :: rest
    else (b, u) :: Memory.write rest a v

/-- The cells from `a` upward written with the values `vs`, in that order: `S[a .. a + len(vs)) <- vs`. -/
def Memory.writeSeq {w : Nat} : Memory w → Nat → List (BitVec w) → Memory w
  | m, _, [] => m
  | m, a, v :: vs => Memory.writeSeq (Memory.write m a v) (a + 1) vs

/-- The canonical form of a memory of `size` cells whose values lie below `limit`: addresses strictly rising, every
listed cell inside the memory, every value one the cell can hold. -/
abbrev Memory.wf {w : Nat} (size limit : Nat) (m : Memory w) : Prop :=
  m.Pairwise (fun c d => c.1 < d.1) ∧ ∀ c ∈ m, c.1 < size ∧ c.2.toNat < limit

end Sys2Proof.Machine
end

