-- ==== Sys2Proof/Machine/State.lean ====
section
/-! DEFINITION. The state of LSBP as plain data (spec/10_state.md R20 to R37), the host's pending operations, the reasons
a step can stop, and the state after reset. -/

namespace Sys2Proof.Machine

/-- The three memories (R50). -/
inductive Space where
  | pix
  | bit
  | msg
  deriving DecidableEq, Repr

/-- What the host and the environment can do to LSBP, one access each (R28, R56, R78, R160). -/
inductive HostOp where
  /-- `HostRegRead(n)` (R28). -/
  | regRead (n : Nat)
  /-- `HostRegWrite(n, v)` (R28); `n = 0` issues the command `v` (R74). -/
  | regWrite (n : Nat) (v : Word)
  /-- `HostMemRead(S, a)` (R56). -/
  | memRead (sp : Space) (a : Nat)
  /-- `HostMemWrite(S, a, v)` (R56). -/
  | memWrite (sp : Space) (a v : Nat)
  /-- `wait`: read `STATUS` until `BUSY` is 0 (R78). -/
  | wait
  /-- The reset event of the environment (R160). -/
  | reset
  deriving DecidableEq, Repr

/-- The state. `STATUS` is the five fields `cmdl` (for `BUSY`), `err`, `trunc`, `found`, `ecode`, which
`State.statusWord` (Flags.lean) puts together. -/
structure State where
  /-- The open parameters (R5). The model's field: no step changes it (log entry 1). -/
  cfg : Config
  /-- `CMDL`, the command latch (R34); it holds a word exactly while `STATUS.BUSY = 1` (log entry 4). -/
  cmdl : Option Word
  /-- `STATUS.ERR` (R23, R30). -/
  err : Bool
  /-- `STATUS.TRUNC` (R23, R30). -/
  trunc : Bool
  /-- `STATUS.FOUND` (R23, R30). -/
  found : Bool
  /-- `STATUS.ECODE` (R23, R140). -/
  ecode : BitVec 4
  /-- `ERRINFO`, register 2 (R24). -/
  errinfo : Word
  /-- `WIDTH`, register 3 (R25). -/
  width : Dim
  /-- `HEIGHT`, register 4 (R25). -/
  height : Dim
  /-- `MLEN`, register 5 (R26). -/
  mlen : Word
  /-- `BLEN`, register 6 (R27). -/
  blen : Word
  /-- `CAPR`, register 7 (R29). -/
  capr : Word
  /-- `PIX`, the written channel cells (R35, R51). -/
  pix : Memory 8
  /-- `BIT`, the written bit cells (R35, R58). -/
  bit : Memory 1
  /-- `MSG`, the written character cells (R35, R59). -/
  msg : Memory 32
  /-- How many reset events there were: the free values of unwritten cells are drawn from it. The model's field
  (log entry 2). -/
  epoch : Nat
  /-- What the host and the environment do next, in order (R65), with a `wait` where the engine completes. The model's
  field (log entry 5). -/
  script : List HostOp
  /-- The values the host's reads returned, oldest first. The model's field (log entry 6). -/
  reads : List Word
  deriving DecidableEq, Repr

/-- No event of LSBP stops the machine with a fault: a failed command is a next state with `STATUS.ERR = 1` (R146), and
an access LSBP gives no meaning is refused (R151). So no step raises one, which is safe (log entry 7). -/
inductive Fault where
  deriving DecidableEq, Repr

/-- Why a step has no meaning. -/
inductive Refusal where
  /-- Raised by an arm of `exec` for a command not modelled yet (no arm does): safe. -/
  | notModelled (mnemonic : String)
  /-- Raised by a host access other than the read of `STATUS` while `BUSY = 1` (R151, R165, R166, U1), whose effect the
  spec leaves undefined and for which it says `refuse`: safe. -/
  | hostAccessWhileBusy
  /-- Raised by a host access to a cell at or beyond the size of the memory (R56, U2), with no step in the spec: safe. -/
  | cellOutOfRange
  /-- Raised by a host write of a value wider than the cell (R56, U2), with no step in the spec: safe. -/
  | valueTooWide
  deriving DecidableEq, Repr

/-- The outcome of a step or of a command. -/
abbrev Result := Host.Outcome State Fault Refusal

/-- The state right after reset number `epoch` (R37, R160): every register 0, no command latched, every memory cell
unspecified (nothing written), the host with nothing pending. -/
def State.resetOf (cfg : Config) (epoch : Nat) : State :=
  { cfg := cfg, cmdl := none, err := false, trunc := false, found := false, ecode := 0, errinfo := 0,
    width := 0, height := 0, mlen := 0, blen := 0, capr := 0, pix := [], bit := [], msg := [],
    epoch := epoch, script := [], reads := [] }

/-- The machine right after the first reset, in the test configuration (log entry 1). -/
def State.reset : State := State.resetOf Config.test 0

end Sys2Proof.Machine
end

