-- ==== Sys2Proof/Machine/Flags.lean ====
section
/-! DEFINITION. `STATUS` and its flags, the error codes, and how a command ends: success (spec/30_encoding.md R75) and
`raise`, which is all LSBP has of an exception (60_exceptions.md R140, R146). -/

namespace Sys2Proof.Machine

/-- The errors of R140. -/
inductive Err where
  /-- The word is no command (R141). -/
  | illCmd
  /-- A character of 256 or more (R142). -/
  | char
  /-- The image does not lie inside `PIX` (R147). -/
  | geom
  /-- A text does not lie inside `MSG` (R143). -/
  | msgRange
  /-- A bit sequence does not lie inside `BIT` (R144). -/
  | bitRange
  deriving DecidableEq, Repr

/-- The value of `STATUS.ECODE` for an error (R140). -/
def Err.code : Err → BitVec 4
  | .illCmd => 1
  | .char => 2
  | .geom => 3
  | .msgRange => 4
  | .bitRange => 5

/-- `STATUS.BUSY` (R23): 1 from the issue of a command until its completion, that is, while one is latched (R34). -/
def State.busy (s : State) : Bool := s.cmdl.isSome

/-- `STATUS`, register 1, as the host reads it (R23): bits 31:12 zero, `ECODE` 11:8, bits 7:4 zero, `FOUND` 3,
`TRUNC` 2, `ERR` 1, `BUSY` 0. -/
def State.statusWord (s : State) : Word :=
  (BitVec.ofBool s.busy).setWidth 32 ||| (BitVec.ofBool s.err).setWidth 32 <<< 1 |||
    (BitVec.ofBool s.trunc).setWidth 32 <<< 2 ||| (BitVec.ofBool s.found).setWidth 32 <<< 3 |||
    s.ecode.setWidth 32 <<< 8

/-- The completion of a command that succeeds (R75): the latch is emptied, so `BUSY = 0`, `ERR = 0`, `ECODE = 0`,
`ERRINFO = 0`, and `TRUNC` and `FOUND` as the command's rule says. -/
def State.succeed (s : State) (trunc found : Bool) : State :=
  { s with cmdl := none, err := false, trunc := trunc, found := found, ecode := 0, errinfo := 0 }

/-- `raise E(info)` (R146): `STATUS <- BUSY = 0, ERR = 1, TRUNC = 0, FOUND = 0, ECODE = code(E)`, `ERRINFO <- info`, and
no other register or cell. Nothing is saved and control goes nowhere, so there is no return beside it (R149). -/
def State.raise (s : State) (e : Err) (info : Word) : State :=
  { s with cmdl := none, err := true, trunc := false, found := false, ecode := e.code, errinfo := info }

/-- The completion of a command whose checks gave `check` and whose effect is `done` (R75): the first failing check is
raised on the state as it was, else the effect stands. -/
def conclude (s : State) (check : Option (Err × Word)) (done : State) : Result :=
  match check with
  | some (e, info) => .next (s.raise e info)
  | none => .next done

end Sys2Proof.Machine
end

