-- ==== Sys2Proof/Machine/Ops.lean ====
section
/-! DEFINITION. The named operations over memories and registers: cell reads and writes (spec/20_memory.md R50), register
writes, issue (30_encoding.md R74), the reset event (70_reset_and_hazards.md R160) and the host's accesses (10_state.md
R28, 20_memory.md R56). Taking an error, `State.raise`, stands in Flags.lean beside the status it writes. -/

namespace Sys2Proof.Machine

/-- The number of cells of a memory (R50). -/
def Space.size (sp : Space) (c : Config) : Nat :=
  match sp with
  | .pix => c.pixSize
  | .bit => c.bitSize
  | .msg => c.msgSize

/-- The width of a cell of a memory, in bits (R50). -/
def Space.width (sp : Space) (c : Config) : Nat :=
  match sp with
  | .pix => 8
  | .bit => 1
  | .msg => c.cpw

/-- `PIX[a]`; a cell nothing has written holds a free value (R37, R162). -/
def State.readPix (s : State) (a : Nat) : Channel := (s.pix.get? a).getD (Config.freePix s.epoch a)

/-- `BIT[i]`; a cell nothing has written holds a free value (R37, R162). -/
def State.readBit (s : State) (i : Nat) : Bit := (s.bit.get? i).getD (Config.freeBit s.epoch i)

/-- `MSG[j]`; a cell nothing has written holds a free value of `CPW` bits (R37, R50, R162). -/
def State.readMsg (s : State) (j : Nat) : CodePoint :=
  (s.msg.get? j).getD (BitVec.ofNat 32 ((Config.freeMsg s.epoch j).toNat % 2 ^ s.cfg.cpw))

/-- `PIX[a] <- v`. -/
def State.writePix (s : State) (a : Nat) (v : Channel) : State := { s with pix := s.pix.write a v }

/-- `BIT[i .. i + len(vs)) <- vs`. -/
def State.writeBits (s : State) (i : Nat) (vs : List Bit) : State := { s with bit := s.bit.writeSeq i vs }

/-- `MSG[j .. j + len(vs)) <- vs`. -/
def State.writeMsgs (s : State) (j : Nat) (vs : List CodePoint) : State := { s with msg := s.msg.writeSeq j vs }

/-- `WIDTH <- v`. -/
def State.setWidth (s : State) (v : Dim) : State := { s with width := v }

/-- `HEIGHT <- v`. -/
def State.setHeight (s : State) (v : Dim) : State := { s with height := v }

/-- `MLEN <- v`. -/
def State.setMlen (s : State) (v : Word) : State := { s with mlen := v }

/-- `BLEN <- v`. -/
def State.setBlen (s : State) (v : Word) : State := { s with blen := v }

/-- `CAPR <- v`. -/
def State.setCapr (s : State) (v : Word) : State := { s with capr := v }

/-- The host has `ops` left to do. -/
def State.setScript (s : State) (ops : List HostOp) : State := { s with script := ops }

/-- A read of the host returned `v`. -/
def State.logRead (s : State) (v : Word) : State := { s with reads := s.reads ++ [v] }

/-- `Issue(c)` (R74): `CMDL <- c` and `BUSY <- 1`; the other fields of `STATUS` and `ERRINFO` keep their values. -/
def State.issue (s : State) (c : Word) : State := { s with cmdl := some c }

/-- The reset event (R160, R161): every register 0, a latched command abandoned, every cell unspecified anew. What the
host has pending and what it has read are the host's and stay. -/
def State.resetEvent (s : State) : State :=
  { State.resetOf s.cfg (s.epoch + 1) with script := s.script, reads := s.reads }

/-- `HostRegRead(n)` (R28). -/
def State.hostRegRead (s : State) (n : Nat) : Word :=
  match n with
  | 1 => s.statusWord
  | 2 => s.errinfo
  | 3 => s.width.setWidth 32
  | 4 => s.height.setWidth 32
  | 5 => s.mlen
  | 6 => s.blen
  | 7 => s.capr
  | _ => 0

/-- `HostRegWrite(n, v)` (R28). -/
def State.hostRegWrite (s : State) (n : Nat) (v : Word) : State :=
  match n with
  | 0 => s.issue v
  | 3 => s.setWidth (v.setWidth 16)
  | 4 => s.setHeight (v.setWidth 16)
  | 5 => s.setMlen v
  | 6 => s.setBlen v
  | _ => s

/-- The value of cell `a` of a memory on the 32-bit path to the host. -/
def State.hostMemRead (s : State) (sp : Space) (a : Nat) : Word :=
  match sp with
  | .pix => (s.readPix a).setWidth 32
  | .bit => (s.readBit a).setWidth 32
  | .msg => s.readMsg a

/-- Cell `a` of a memory written by the host with `v`, which fits the cell. -/
def State.hostMemWrite (s : State) (sp : Space) (a v : Nat) : State :=
  match sp with
  | .pix => s.writePix a (BitVec.ofNat 8 v)
  | .bit => s.writeBits a [BitVec.ofNat 1 v]
  | .msg => s.writeMsgs a [BitVec.ofNat 32 v]

/-- The host's own access while `BUSY = 0` (R28, R56); the memory accesses only in their domain (R56, R151, U2). -/
def hostAccess (s : State) (op : HostOp) : Result :=
  match op with
  | .regRead n => .next (s.logRead (s.hostRegRead n))
  | .regWrite n v => .next (s.hostRegWrite n v)
  | .memRead sp a =>
    if sp.size s.cfg ≤ a then .refused .cellOutOfRange else .next (s.logRead (s.hostMemRead sp a))
  | .memWrite sp a v =>
    if sp.size s.cfg ≤ a then .refused .cellOutOfRange
    else if 2 ^ sp.width s.cfg ≤ v then .refused .valueTooWide
    else .next (s.hostMemWrite sp a v)
  | .wait => .next s
  | .reset => .next s.resetEvent

/-- The host's access while `BUSY = 1` (R166): the read of `STATUS`, which has no side effect, and the environment's
reset (R161); everything else is undefined and has no step (R151, R165, U1). A `wait` keeps reading `STATUS`, and it is the
engine that moves (`State.engineTurn`). -/
def hostAccessBusy (s : State) (op : HostOp) : Result :=
  match op with
  | .regRead 1 => .next (s.logRead (s.hostRegRead 1))
  | .wait => .next s
  | .reset => .next s.resetEvent
  | _ => .refused .hostAccessWhileBusy

/-- One step of the host: its next pending operation, which is then done. With nothing pending and nothing latched
LSBP is idle and keeps its state (R153). -/
def hostTurn (s : State) : Result :=
  match s.script with
  | [] => .next s
  | op :: rest =>
    if s.busy then hostAccessBusy (s.setScript rest) op else hostAccess (s.setScript rest) op

/-- The host waits for the engine: it reads `STATUS` until `BUSY = 0`, or has nothing left to do. -/
def awaitsEngine (ops : List HostOp) : Bool :=
  match ops with
  | [] => true
  | op :: _ => op == .wait

/-- The engine's step is the next one: a command is latched and the host waits for it (R75, R171, log entry 5). -/
def State.engineTurn (s : State) : Bool := s.busy && awaitsEngine s.script

end Sys2Proof.Machine
end

