-- ==== Sys2Proof/Machine/Operands.lean ====
section
/-! DEFINITION. The implicit operands of the commands (spec/30_encoding.md R71): the derived quantities (10_state.md
R32), the pixel layout and the scan (20_memory.md R51 to R54), the valid parts of the memories (10_state.md R35) and the
checks of 60_exceptions.md R142 to R147. -/

namespace Sys2Proof.Machine

/-- `NP = W * H`, the number of pixels (R32). -/
def State.np (s : State) : Nat := s.width.toNat * s.height.toNat

/-- `NC = 3 * NP`, the bit budget (R32). -/
def State.nc (s : State) : Nat := 3 * s.np

/-- `CAPV = NC div 8`, the capacity in characters (R32). -/
def State.capv (s : State) : Nat := s.nc / 8

/-- The `PIX` cell of channel `c` of the pixel at column `x` and row `y` of an image of width `w` (R51, R52, R53). -/
def pixelCell (cfg : Config) (w x y c : Nat) : Nat := (y * w + x) * cfg.nch + c

/-- `addr(k)`, the `PIX` cell of scan index `k` (R54). -/
def scanAddr (cfg : Config) (k : Nat) : Nat := k / 3 * cfg.nch + k % 3

/-- The text `MSG[0 .. MLEN)` (R26, R59). -/
def State.text (s : State) : List CodePoint := (List.range s.mlen.toNat).map s.readMsg

/-- The first `n` bits of the bit sequence, `BIT[0 .. n)` (R27, R58). -/
def State.bitsUpTo (s : State) (n : Nat) : List Bit := (List.range n).map s.readBit

/-- The bit sequence `BIT[0 .. BLEN)` (R27, R58). -/
def State.bits (s : State) : List Bit := s.bitsUpTo s.blen.toNat

/-- `ImageBits(PIX)`, the parities of the `NC` scanned channels (R115). -/
def State.imageBits (s : State) : List Bit :=
  (List.range s.nc).map (fun k => BitVec.ofNat 1 ((s.readPix (scanAddr s.cfg k)).toNat % 2))

/-- `Geom(0)` when the whole image does not lie inside `PIX` (R147). -/
def State.geomCheck (s : State) : Option (Err × Word) :=
  if s.cfg.pixSize < s.np * s.cfg.nch then some (.geom, 0) else none

/-- `MsgRange(0)` when the input text does not lie inside `MSG` (R143). -/
def State.textCheck (s : State) : Option (Err × Word) :=
  if s.cfg.msgSize < s.mlen.toNat then some (.msgRange, 0) else none

/-- `MsgRange(1)` when a result text of `n` characters would not lie inside `MSG` (R143). -/
def State.textRoom (s : State) (n : Nat) : Option (Err × Word) :=
  if s.cfg.msgSize < n then some (.msgRange, 1) else none

/-- `BitRange(0)` when the input sequence does not lie inside `BIT` (R144). -/
def State.bitsCheck (s : State) : Option (Err × Word) :=
  if s.cfg.bitSize < s.blen.toNat then some (.bitRange, 0) else none

/-- `BitRange(1)` when a result sequence of `n` bits would not lie inside `BIT` (R144). -/
def State.bitsRoom (s : State) (n : Nat) : Option (Err × Word) :=
  if s.cfg.bitSize < n then some (.bitRange, 1) else none

/-- The index of the first character of 256 or more (R142). -/
def firstBadChar (t : List CodePoint) : Option Nat := t.findIdx? (fun c => 256 ≤ c.toNat)

/-- `Char(j0)` when the text has a character of 256 or more, `j0` the least index of one (R142). -/
def State.charCheck (s : State) : Option (Err × Word) :=
  match firstBadChar s.text with
  | some j => some (.char, BitVec.ofNat 32 j)
  | none => none

end Sys2Proof.Machine
end

