-- ==== Sys2Proof/Machine/Capacity.lean ====
section
/-! DEFINITION. The CapacityCalculator family (spec/41_capacity.md): CAP. -/

namespace Sys2Proof.Machine

/-- `CAP` (R100): `CAPR <- (WIDTH * HEIGHT * 3) div 8`; it raises no error. -/
def execCap (s : State) : Result := .next ((s.setCapr (BitVec.ofNat 32 s.capv)).succeed false false)

end Sys2Proof.Machine
end

