-- ==== Sys2Proof/Machine/BitCodec.lean ====
section
/-! DEFINITION. The BitCodec family (spec/40_bitcodec.md): `TextToBits`, `BitsToText`, PACK and UNPACK. -/

namespace Sys2Proof.Machine

/-- Bit `j` of `bits8(c)`: the `j`-th most significant of the 8 bits of a code point, `(c div 2^(7-j)) mod 2` (R90). -/
def charBit (c : CodePoint) (j : Nat) : Bit := BitVec.ofNat 1 (c.toNat / 2 ^ (7 - j) % 2)

/-- `bits8(c)`, most significant bit first (R90). -/
def bits8 (c : CodePoint) : List Bit := (List.range 8).map (charBit c)

/-- `TextToBits(s)` (R90). -/
def textToBits (t : List CodePoint) : List Bit := t.flatMap bits8

/-- `val8` of eight bits, the sum of `b[j] * 2^(7-j)` (R92), as the cell `zext_CPW` makes of it (R93). -/
def val8 (b0 b1 b2 b3 b4 b5 b6 b7 : Bit) : CodePoint :=
  BitVec.ofNat 32
    (b0.toNat * 2 ^ 7 + b1.toNat * 2 ^ 6 + b2.toNat * 2 ^ 5 + b3.toNat * 2 ^ 4 + b4.toNat * 2 ^ 3 +
      b5.toNat * 2 ^ 2 + b6.toNat * 2 ^ 1 + b7.toNat * 2 ^ 0)

/-- `BitsToText(b)`: chunks of 8, the trailing bits that do not fill one dropped (R92). -/
def bitsToText : List Bit → List CodePoint
  | b0 :: b1 :: b2 :: b3 :: b4 :: b5 :: b6 :: b7 :: rest => val8 b0 b1 b2 b3 b4 b5 b6 b7 :: bitsToText rest
  | _ => []

/-- The writes of PACK: `BIT[0 .. 8*MLEN) <- TextToBits(MSG[0 .. MLEN))`, `BLEN <- 8*MLEN` (R91). -/
def State.packText (s : State) : State :=
  (s.writeBits 0 (textToBits s.text)).setBlen (BitVec.ofNat 32 (8 * s.mlen.toNat))

/-- The writes of UNPACK: `MSG[0 .. n) <- BitsToText(BIT[0 .. BLEN))`, `MLEN <- n`, `n = BLEN div 8` (R93). -/
def State.unpackBits (s : State) : State :=
  (s.writeMsgs 0 (bitsToText s.bits)).setMlen (BitVec.ofNat 32 (s.blen.toNat / 8))

/-- The checks of PACK, in order (R91). -/
def State.packCheck (s : State) : Option (Err × Word) :=
  s.textCheck <|> s.bitsRoom (8 * s.mlen.toNat) <|> s.charCheck

/-- The checks of UNPACK, in order (R93). -/
def State.unpackCheck (s : State) : Option (Err × Word) := s.textRoom (s.blen.toNat / 8) <|> s.bitsCheck

/-- `PACK` (R91). -/
def execPack (s : State) : Result := conclude s s.packCheck (s.packText.succeed false false)

/-- `UNPACK` (R93). -/
def execUnpack (s : State) : Result := conclude s s.unpackCheck (s.unpackBits.succeed false false)

end Sys2Proof.Machine
end

