-- ==== Sys2Proof/Machine/Framer.lean ====
section
/-! DEFINITION. The MessageFramer family (spec/44_framer.md): the terminator, `Keep`, `Find`, FRAME and UNFRAME. -/

namespace Sys2Proof.Machine

/-- The terminator `T`, "STOP" (R120); the numbers are G1's, not STEG's (log entry 9). -/
def terminator : List CodePoint := [83, 84, 79, 80]

/-- `Keep(n, cap)`, the number of message characters kept (R122). -/
def keepLen (n cap : Nat) : Nat := if 4 ≤ cap then min n (cap - 4) else n

/-- The terminator stands at the head of a text (R123). -/
def startsWithStop : List CodePoint → Bool
  | c0 :: c1 :: c2 :: c3 :: _ => c0 == 83 && c1 == 84 && c2 == 79 && c3 == 80
  | _ => false

/-- `Find(s)`, the least index at which the terminator stands (R123). -/
def findStop : List CodePoint → Option Nat
  | [] => none
  | c :: cs => if startsWithStop (c :: cs) then some 0 else (findStop cs).map (· + 1)

/-- `keep`, the number of characters of the message that FRAME keeps (R121). -/
def State.keep (s : State) : Nat := keepLen s.mlen.toNat s.capv

/-- The writes of FRAME: `MSG[keep .. keep+4) <- T`, `MLEN <- keep + 4` (R121). -/
def State.frameText (s : State) : State :=
  (s.writeMsgs s.keep terminator).setMlen (BitVec.ofNat 32 (s.keep + 4))

/-- The value of `STATUS.TRUNC` after FRAME: characters of the message were dropped (R121). -/
def State.charsDropped (s : State) : Bool := s.keep < s.mlen.toNat

/-- The writes of UNFRAME and its `FOUND`: `MLEN` becomes the index of the first terminator, if there is one (R124). -/
def State.unframeText (s : State) : State :=
  match findStop s.text with
  | some r => (s.setMlen (BitVec.ofNat 32 r)).succeed false true
  | none => s.succeed false false

/-- The checks of FRAME, in order (R121). -/
def State.frameCheck (s : State) : Option (Err × Word) := s.textCheck <|> s.textRoom (s.keep + 4)

/-- `FRAME` (R121). -/
def execFrame (s : State) : Result := conclude s s.frameCheck (s.frameText.succeed s.charsDropped false)

/-- `UNFRAME` (R124). -/
def execUnframe (s : State) : Result := conclude s s.textCheck s.unframeText

end Sys2Proof.Machine
end

