-- ==== Sys2Proof/Machine/PixelDecoder.lean ====
section
/-! DEFINITION. The PixelDecoder family (spec/43_pixel_decoder.md): DECB. -/

namespace Sys2Proof.Machine

/-- The writes of DECB: `BIT[0 .. NC) <- ImageBits(PIX)`, `BLEN <- NC` (R116). -/
def State.decodeImage (s : State) : State := (s.writeBits 0 s.imageBits).setBlen (BitVec.ofNat 32 s.nc)

/-- The checks of DECB, in order (R116). -/
def State.decbCheck (s : State) : Option (Err × Word) := s.geomCheck <|> s.bitsRoom s.nc

/-- `DECB` (R116). -/
def execDecb (s : State) : Result := conclude s s.decbCheck (s.decodeImage.succeed false false)

end Sys2Proof.Machine
end

