-- ==== Sys2Proof/Machine/PixelEncoder.lean ====
section
/-! DEFINITION. The PixelEncoder family (spec/42_pixel_encoder.md): `SetParity` and ENCB. -/

namespace Sys2Proof.Machine

/-- `SetParity(v, b)` (R105). -/
def setParity (v : Channel) (b : Bit) : Channel :=
  if b = 1 ∧ v.toNat % 2 = 0 then v + 1
  else if b = 0 ∧ v.toNat % 2 = 1 then v - 1
  else v

/-- The scan of ENCB from scan index `k` on: each bit goes to the channel of its scan index (R106). DESIGN CHOICE (log
entry 11): a channel already of the right parity is written back with its own value, which R63, D31 and U10 leave open and no
read can tell. -/
def State.encodeFrom (s : State) (k : Nat) : List Bit → State
  | [] => s
  | b :: bs =>
    State.encodeFrom (s.writePix (scanAddr s.cfg k) (setParity (s.readPix (scanAddr s.cfg k)) b)) (k + 1) bs

/-- The writes of ENCB: the parities of the first `min(BLEN, NC)` scanned channels (R106). -/
def State.encodeBits (s : State) : State := s.encodeFrom 0 (s.bitsUpTo (min s.blen.toNat s.nc))

/-- The value of `STATUS.TRUNC` after ENCB: bits had no channel to go to (R106). -/
def State.bitsDropped (s : State) : Bool := s.nc < s.blen.toNat

/-- The checks of ENCB, in order (R106). -/
def State.encbCheck (s : State) : Option (Err × Word) := s.geomCheck <|> s.bitsCheck

/-- `ENCB` (R106). -/
def execEncb (s : State) : Result := conclude s s.encbCheck (s.encodeBits.succeed s.bitsDropped false)

end Sys2Proof.Machine
end

