-- ==== Sys2Proof/Machine/Composite.lean ====
section
/-! DEFINITION. The composite family (spec/45_composite.md): HIDE and REVEAL, the two data flows over the writes of their
parts. -/

namespace Sys2Proof.Machine

/-- The checks of HIDE, in order, all before any write (R130). -/
def State.hideCheck (s : State) : Option (Err × Word) :=
  s.geomCheck <|> s.textCheck <|> s.textRoom (s.keep + 4) <|> s.bitsRoom (8 * (s.keep + 4)) <|> s.charCheck

/-- The writes of HIDE: those of FRAME, then PACK of the framed text, then ENCB of its bits (R130). -/
def State.hideText (s : State) : State := s.frameText.packText.encodeBits

/-- The value of `STATUS.TRUNC` after HIDE: characters were dropped or bits had no channel (R130). -/
def State.hideDropped (s : State) : Bool := s.charsDropped || decide (s.nc < 8 * (s.keep + 4))

/-- `HIDE` (R130). -/
def execHide (s : State) : Result := conclude s s.hideCheck (s.hideText.succeed s.hideDropped false)

/-- The checks of REVEAL, in order, all before any write (R132). -/
def State.revealCheck (s : State) : Option (Err × Word) :=
  s.geomCheck <|> s.textRoom s.capv <|> s.bitsRoom s.nc

/-- `REVEAL` (R132): the writes of DECB, then of UNPACK, then of UNFRAME, whose `FOUND` is REVEAL's. -/
def execReveal (s : State) : Result := conclude s s.revealCheck s.decodeImage.unpackBits.unframeText

end Sys2Proof.Machine
end

