-- ==== Sys2Proof/Machine/SystemCommands.lean ====
section
/-! DEFINITION. The system family (spec/46_system.md): NOP. -/

namespace Sys2Proof.Machine

/-- `NOP` (R138): nothing but the completion, which leaves `STATUS = 0` and `ERRINFO = 0`. -/
def execNop (s : State) : Result := .next (s.succeed false false)

end Sys2Proof.Machine
end

