-- ==== Sys2Proof/Machine/Engine.lean ====
section
/-! DEFINITION. The engine's one step, the completion of the latched command (spec/30_encoding.md R75). -/

namespace Sys2Proof.Machine

/-- The completion of the word `c` (R75): the command it is, or `IllCmd(c)` when it is none (R73, R141), found before
anything else is looked at. -/
def completeWord (c : Word) (s : State) : Result :=
  match decode c with
  | .instr i => exec i s
  | .illegal _ => .next (s.raise .illCmd c)

/-- `Complete`: the latched command is performed whole; with none latched there is nothing to complete. -/
def complete (s : State) : Result :=
  match s.cmdl with
  | some c => completeWord c s
  | none => .next s

end Sys2Proof.Machine
end

