-- ==== Sys2Proof/Machine/Step.lean ====
section
/-! DEFINITION. One step of the machine: the engine's when a command is latched and the host waits for it, else the
host's (spec/10_state.md R20, 20_memory.md R65). -/

namespace Sys2Proof.Machine

/-- One step. -/
def step (s : State) : Host.Outcome State Fault Refusal := if s.engineTurn then complete s else hostTurn s

/-- `s` with the word `w` issued and waited for (R74, R79), so that the next step is its completion: the word is latched,
and if the host's next operation is another than `wait`, a `wait` is put before it. -/
def State.withFetchWord (s : State) (nbits w : Nat) : State :=
  (s.issue (BitVec.ofNat 32 (w % 2 ^ nbits))).setScript
    (if awaitsEngine s.script then s.script else .wait :: s.script)

end Sys2Proof.Machine
end

