-- ==== Sys2Proof/Machine/Script.lean ====
section
/-! DEFINITION. The script notation of host programs and its expansion into port operations (spec/30_encoding.md R78,
R79). -/

namespace Sys2Proof.Machine

/-- The register names (R21). -/
inductive Reg where
  | cmd
  | status
  | errinfo
  | width
  | height
  | mlen
  | blen
  | capr
  deriving DecidableEq, Repr

/-- The register numbers (R21). -/
def Reg.num : Reg → Nat
  | .cmd => 0
  | .status => 1
  | .errinfo => 2
  | .width => 3
  | .height => 4
  | .mlen => 5
  | .blen => 6
  | .capr => 7

/-- A statement of a script (R78, R79). -/
inductive Stmt where
  /-- `wr REG, v`. -/
  | wr (r : Reg) (v : Word)
  /-- `rd REG`. -/
  | rd (r : Reg)
  /-- `pix a: v0 v1 ...`, `bit i: b0b1...`, `msg j: v0 v1 ...`. -/
  | cells (sp : Space) (a : Nat) (vs : List Nat)
  /-- `wait`. -/
  | wait
  /-- The pseudo-statement of a command (R79). -/
  | cmd (i : Instr)
  deriving DecidableEq, Repr

/-- The cell writes of a `pix`, `bit` or `msg` line (R78). -/
def cellWrites (sp : Space) : Nat → List Nat → List HostOp
  | _, [] => []
  | a, v :: vs => .memWrite sp a v :: cellWrites sp (a + 1) vs

/-- The port operations a statement stands for (R78, R79). -/
def Stmt.expand : Stmt → List HostOp
  | .wr r v => [.regWrite r.num v]
  | .rd r => [.regRead r.num]
  | .cells sp a vs => cellWrites sp a vs
  | .wait => [.wait]
  | .cmd i => [.regWrite 0 (encode i), .wait]

/-- The encoding of a script (R79). -/
def scriptOps (p : List Stmt) : List HostOp := p.flatMap Stmt.expand

end Sys2Proof.Machine
end

