-- ==== Sys2Proof/Safety.lean ====
section
/-! DEFINITION. The terms in which claims are stated: the invariant of the machine, a final state, the host's duties
(spec/70_reset_and_hazards.md), the reports of a completion and the frames of the memories. -/

namespace Sys2Proof.Machine

/-- The memories are in canonical form, hold only cells that exist and values a cell can hold (R50). -/
abbrev State.memOk (s : State) : Prop :=
  s.pix.wf s.cfg.pixSize (2 ^ 8) ∧ s.bit.wf s.cfg.bitSize (2 ^ 1) ∧ s.msg.wf s.cfg.msgSize (2 ^ s.cfg.cpw)

/-- The report is one a completion or a reset can leave: `ECODE` at most 5 and nonzero exactly with `ERR`, no other flag
with `ERR`, `ERRINFO = 0` without it, never `TRUNC` with `FOUND` (R23, R24, R30, R140). -/
abbrev State.reportOk (s : State) : Prop :=
  s.ecode.toNat ≤ 5 ∧ (s.err = true ↔ s.ecode ≠ 0) ∧ (s.err = true → s.trunc = false ∧ s.found = false) ∧
    (s.err = false → s.errinfo = 0) ∧ ¬(s.trunc = true ∧ s.found = true)

/-- The invariant of the machine: legal parameters (R5), the memories, the report, and a capacity below its bound
(R32). -/
abbrev State.Inv (s : State) : Prop :=
  s.cfg.ok ∧ s.memOk ∧ s.reportOk ∧ s.capr.toNat ≤ 1610563584

/-- A run of a script has ended: nothing is pending and no command is latched (R164). -/
abbrev State.final (s : State) : Prop := s.script = [] ∧ s.busy = false

/-- The host operation is one LSBP gives a meaning in state `s` (R56, R166): while `BUSY = 1` only the read of `STATUS`
and waiting; else every register access, and a memory access inside the memory with a value the cell can hold. A reset is
always possible (R160). -/
abbrev HostOp.allowed (op : HostOp) (s : State) : Prop :=
  match op with
  | .regRead n => s.busy = true → n = 1
  | .regWrite _ _ => s.busy = false
  | .memRead sp a => s.busy = false ∧ a < sp.size s.cfg
  | .memWrite sp a v => s.busy = false ∧ a < sp.size s.cfg ∧ v < 2 ^ sp.width s.cfg
  | .wait => True
  | .reset => True

/-- The state after a success that writes `TRUNC` and `FOUND` so: not busy, no error, `ERRINFO = 0` (R75). -/
abbrev State.succeeded (t : State) (trunc found : Bool) : Prop :=
  t.busy = false ∧ t.err = false ∧ t.trunc = trunc ∧ t.found = found ∧ t.ecode = 0 ∧ t.errinfo = 0

/-- The registers `WIDTH`, `HEIGHT` and `CAPR`, the parameters, and what belongs to the host are the same. -/
abbrev State.sameRest (s t : State) : Prop :=
  t.cfg = s.cfg ∧ t.width = s.width ∧ t.height = s.height ∧ t.capr = s.capr ∧ t.epoch = s.epoch ∧
    t.script = s.script ∧ t.reads = s.reads

/-- Every cell of `PIX` reads as before. -/
abbrev State.samePix (s t : State) : Prop := ∀ a, t.readPix a = s.readPix a

/-- Every cell of `BIT` reads as before. -/
abbrev State.sameBit (s t : State) : Prop := ∀ i, t.readBit i = s.readBit i

/-- Every cell of `MSG` reads as before. -/
abbrev State.sameMsg (s t : State) : Prop := ∀ j, t.readMsg j = s.readMsg j

/-- The message is one the conversion takes: every character below 256 (R90, R142). -/
abbrev State.textOk (s : State) : Prop := ∀ j, j < s.mlen.toNat → (s.readMsg j).toNat < 256

/-- The state after a failed command: the report with this code and info, and nothing else changed (R146). -/
def State.failedWith (s : State) (code : BitVec 4) (info : Word) : State :=
  { s with cmdl := none, err := true, trunc := false, found := false, ecode := code, errinfo := info }

/-- The terminator "STOP" stands at index `i` of the first `n` characters of `MSG` (R120, R123). -/
abbrev State.stopAt (s : State) (n i : Nat) : Prop :=
  i + 4 ≤ n ∧ s.readMsg i = 83 ∧ s.readMsg (i + 1) = 84 ∧ s.readMsg (i + 2) = 79 ∧ s.readMsg (i + 3) = 80

/-- `i` is the first index at which the terminator stands (R123). -/
abbrev State.firstStopAt (s : State) (n i : Nat) : Prop := s.stopAt n i ∧ ∀ j, j < i → ¬s.stopAt n j

/-- The value of a character of `BIT`: the sum of `BIT[8k+j] * 2^(7-j)` over `j = 0 .. 7` (R92). -/
abbrev State.bitsValue (s : State) (k : Nat) : Nat :=
  ((List.range 8).map (fun j => (s.readBit (8 * k + j)).toNat * 2 ^ (7 - j))).sum

/-- `SetParity(v, b)` on naturals, as R105 writes it. -/
abbrev parityRule (v b : Nat) : Nat :=
  if b = 1 ∧ v % 2 = 0 then v + 1 else if b = 0 ∧ v % 2 = 1 then v - 1 else v

/-- The causes for which a command can raise an error, by code and info (R140, R142 to R144, R147). -/
abbrev raises (i : Instr) (s : State) (code info : Nat) : Prop :=
  (code = 3 ∧ info = 0 ∧ i ∈ [Instr.encb, .decb, .hide, .reveal] ∧
      s.cfg.pixSize < s.width.toNat * s.height.toNat * s.cfg.nch) ∨
    (code = 4 ∧ info = 0 ∧ i ∈ [Instr.pack, .frame, .unframe, .hide] ∧ s.cfg.msgSize < s.mlen.toNat) ∨
    (code = 4 ∧ info = 1 ∧
      ((i = .unpack ∧ s.cfg.msgSize < s.blen.toNat / 8) ∨
        (i ∈ [Instr.frame, .hide] ∧ s.cfg.msgSize < keepLen s.mlen.toNat s.capv + 4) ∨
        (i = .reveal ∧ s.cfg.msgSize < s.capv))) ∨
    (code = 5 ∧ info = 0 ∧ i ∈ [Instr.unpack, .encb] ∧ s.cfg.bitSize < s.blen.toNat) ∨
    (code = 5 ∧ info = 1 ∧
      ((i = .pack ∧ s.cfg.bitSize < 8 * s.mlen.toNat) ∨
        (i ∈ [Instr.decb, .reveal] ∧ s.cfg.bitSize < s.nc) ∨
        (i = .hide ∧ s.cfg.bitSize < 8 * (keepLen s.mlen.toNat s.capv + 4)))) ∨
    (code = 2 ∧ i ∈ [Instr.pack, .hide] ∧ info < s.mlen.toNat ∧ 256 ≤ (s.readMsg info).toNat ∧
      ∀ j, j < info → (s.readMsg j).toNat < 256)

/-- The place of a cause in the fixed order of R145: `Geom`, `MsgRange` 0, `MsgRange` 1, `BitRange`, `Char`. -/
abbrev errRank (code info : Nat) : Nat :=
  if code = 3 then 0 else if code = 4 then 1 + info else if code = 5 then 3 else 4

/-- `a` is the cell of a channel with number 3 or more of some pixel (R57). -/
abbrev upperCell (cfg : Config) (a : Nat) : Prop := 3 ≤ a % cfg.nch

/-- `Fits`, the preconditions shared by the laws of 45_composite.md (R133), for the state before `hide`, with the
parameters legal and every character of the message below 256. -/
abbrev State.fits (s : State) : Prop :=
  s.cfg.ok ∧ s.np * s.cfg.nch ≤ s.cfg.pixSize ∧ s.nc ≤ s.cfg.bitSize ∧ s.capv ≤ s.cfg.msgSize ∧
    s.mlen.toNat + 4 ≤ s.cfg.msgSize ∧ 8 * (s.mlen.toNat + 4) ≤ s.cfg.bitSize ∧ s.textOk

end Sys2Proof.Machine
end

