-- ==== Sys2Proof/Certificates/Slice0/Obligations.lean ====
section
/-! DEFINITION. The statements for the provers, each formalising rules of spec/ over every state of the model. -/

open Sys2Proof Sys2Proof.Machine

/-! Encodings and the engine's step -/

/-- R72: a word is a command exactly when it is one of the ten words of the table, and then that row's command. -/
def Obligations.CommandWordsAreTheTen : Prop :=
  ∀ (c : Word) (i : Instr), decode c = .instr i ↔
    (c = 0x00000000 ∧ i = .nop) ∨ (c = 0x00000001 ∧ i = .cap) ∨ (c = 0x00000002 ∧ i = .pack) ∨
      (c = 0x00000003 ∧ i = .unpack) ∨ (c = 0x00000004 ∧ i = .encb) ∨ (c = 0x00000005 ∧ i = .decb) ∨
      (c = 0x00000006 ∧ i = .frame) ∨ (c = 0x00000007 ∧ i = .unframe) ∨ (c = 0x00000008 ∧ i = .hide) ∨
      (c = 0x00000009 ∧ i = .reveal)

/-- R70, R72: the decoder reads every command back from its word, and the word written out from the table. -/
def Obligations.DecodeOfEncode : Prop :=
  (∀ i : Instr, i.wellFormed → decode (encode i) = .instr i) ∧
    decode 0b00000000000000000000000000000001 = .instr .cap ∧
    decode 0b00000000000000000000000000000110 = .instr .frame ∧
    decode 0b00000000000000000000000000001001 = .instr .reveal

/-- R73, R141: the completion of a word with `c[31:4] != 0` or `c[3:0] > 9` reports `IllCmd` with the word, whatever the
rest of the state, and changes nothing else. -/
def Obligations.IllegalWordReportsIllCmd : Prop :=
  ∀ (s : State) (c : Word), s.engineTurn = true → s.cmdl = some c → (c.toNat / 16 ≠ 0 ∨ 9 < c.toNat % 16) →
    step s = .next (s.failedWith 1 c)

/-- R75: when the latched word decodes to a command and the host waits, a step is that command on that state. -/
def Obligations.StepRunsTheLatchedCommand : Prop :=
  ∀ (s : State) (c : Word) (i : Instr), s.engineTurn = true → s.cmdl = some c → decode c = .instr i →
    step s = exec i s

/-- R74, R165: a write of `CMD` while `BUSY = 0` latches the word, sets `BUSY` and changes nothing else of LSBP; while
`BUSY = 1` it has no step. -/
def Obligations.IssueLatchesTheWord : Prop :=
  ∀ (s : State) (c : Word) (rest : List HostOp), s.script = .regWrite 0 c :: rest →
    (s.busy = false → ∃ t, step s = .next t ∧ t = { s with script := rest, cmdl := some c } ∧ t.busy = true) ∧
      (s.busy = true → step s = .refused .hostAccessWhileBusy)

/-- R171: an issued command is completed: however often the host reads `STATUS` first, once it waits the command
completes. -/
def Obligations.IssuedCommandCompletes : Prop :=
  ∀ (s : State) (n : Nat) (rest : List HostOp), s.busy = true → awaitsEngine rest = true →
    s.script = List.replicate n (.regRead 1) ++ rest →
    ∃ t, core.run (n + 1) s = .next t ∧ State.busy t = false ∧ State.script t = rest

/-! The host's port -/

/-- R23 (the table): the bits of `STATUS` as the host reads it. -/
def Obligations.StatusWordFields : Prop :=
  ∀ s : State, s.statusWord.getLsbD 0 = s.busy ∧ s.statusWord.getLsbD 1 = s.err ∧ s.statusWord.getLsbD 2 = s.trunc ∧
    s.statusWord.getLsbD 3 = s.found ∧ (∀ b, 4 ≤ b → b < 8 → s.statusWord.getLsbD b = false) ∧
    (∀ b, b < 4 → s.statusWord.getLsbD (8 + b) = s.ecode.getLsbD b) ∧
    (∀ b, 12 ≤ b → s.statusWord.getLsbD b = false)

/-- R28: the two register accesses for every register number, allowed while `BUSY = 0`, the read of `STATUS` always. A read
changes nothing of LSBP: `script` and `reads` are the host's (log entries 5 and 6). -/
def Obligations.HostRegisterPort : Prop :=
  ∀ (s : State) (n : Nat) (rest : List HostOp),
    (s.script = .regRead n :: rest →
      ((s.busy = false ∨ n = 1) →
        step s = .next { s with
          script := rest
          reads := s.reads ++
            [if n = 1 then s.statusWord else if n = 2 then s.errinfo
              else if n = 3 then BitVec.ofNat 32 s.width.toNat else if n = 4 then BitVec.ofNat 32 s.height.toNat
              else if n = 5 then s.mlen else if n = 6 then s.blen else if n = 7 then s.capr else 0] }) ∧
        (s.busy = true → n ≠ 1 → step s = .refused .hostAccessWhileBusy)) ∧
      ∀ v : Word, s.script = .regWrite n v :: rest →
        (s.busy = false →
          step s = .next
            (if n = 0 then { s with script := rest, cmdl := some v }
              else if n = 3 then { s with script := rest, width := BitVec.ofNat 16 (v.toNat % 2 ^ 16) }
              else if n = 4 then { s with script := rest, height := BitVec.ofNat 16 (v.toNat % 2 ^ 16) }
              else if n = 5 then { s with script := rest, mlen := v }
              else if n = 6 then { s with script := rest, blen := v } else { s with script := rest })) ∧
          (s.busy = true → step s = .refused .hostAccessWhileBusy)

/-- R56: the two memory accesses, allowed only while `BUSY = 0`: inside the domain a read returns the cell and has no side
effect, and a write changes that cell of that memory and nothing else; outside it there is no step. -/
def Obligations.HostMemoryAccess : Prop :=
  ∀ (s : State) (sp : Space) (a : Nat) (rest : List HostOp), s.cfg.ok →
    (s.script = .memRead sp a :: rest →
      (s.busy = false → a < sp.size s.cfg →
        step s = .next { s with script := rest, reads := s.reads ++ [s.hostMemRead sp a] }) ∧
        (s.busy = false → sp.size s.cfg ≤ a → step s = .refused .cellOutOfRange) ∧
        (s.busy = true → step s = .refused .hostAccessWhileBusy)) ∧
      ∀ v : Nat, s.script = .memWrite sp a v :: rest →
        (s.busy = false → a < sp.size s.cfg → v < 2 ^ sp.width s.cfg →
          ∃ t, step s = .next t ∧ t = { s with script := rest, pix := t.pix, bit := t.bit, msg := t.msg } ∧
            (t.hostMemRead sp a).toNat = v ∧
            ∀ sp' b, (sp' ≠ sp ∨ b ≠ a) → t.hostMemRead sp' b = s.hostMemRead sp' b) ∧
          (s.busy = false → sp.size s.cfg ≤ a → step s = .refused .cellOutOfRange) ∧
          (s.busy = false → a < sp.size s.cfg → 2 ^ sp.width s.cfg ≤ v → step s = .refused .valueTooWide) ∧
          (s.busy = true → step s = .refused .hostAccessWhileBusy)

/-- R166: while `BUSY = 1` the host's read of `STATUS` returns it with `BUSY = 1` and has no side effect, and every other
register or memory access has no step. -/
def Obligations.BusyAllowsOnlyStatusRead : Prop :=
  ∀ (s : State) (op : HostOp) (rest : List HostOp), s.busy = true → s.script = op :: rest →
    (op = .regRead 1 →
      step s = .next { s with script := rest, reads := s.reads ++ [s.statusWord] } ∧
        s.statusWord.getLsbD 0 = true) ∧
      (op ≠ .regRead 1 → op ≠ .wait → op ≠ .reset → step s = .refused .hostAccessWhileBusy)

/-- R151, R166, R56: an access by the host that breaks the ownership rule or the domain of a memory access is refused.
That no other step is refused rests on R75 and R146 for the engine's step and on log entry 5 for the idle step and for whose
turn it is; that no step ends in a fault is the model's own (log entry 7: `Fault` has no constructor). -/
def Obligations.RefusedExactlyWhenHostErrs : Prop :=
  ∀ s : State, (∀ f, step s ≠ .fault f) ∧
    ((∃ r, step s = .refused r) ↔
      s.engineTurn = false ∧ ∃ op rest, s.script = op :: rest ∧ ¬HostOp.allowed op s)

/-- R160, R161, R37: the reset event, at any time, leaves every register reading 0, no command pending and every cell an
unspecified (free) value of the new reset; what the host has pending and has read is the host's (log entry 6). -/
def Obligations.ResetEventClears : Prop :=
  ∀ (s : State) (rest : List HostOp), s.script = .reset :: rest →
    ∃ t, step s = .next t ∧ (∀ n, t.hostRegRead n = 0) ∧ t.busy = false ∧ t.cfg = s.cfg ∧
      t.epoch = s.epoch + 1 ∧ (∀ a, t.readPix a = Config.freePix (s.epoch + 1) a) ∧
      (∀ i, t.readBit i = Config.freeBit (s.epoch + 1) i) ∧
      (∀ j, (t.readMsg j).toNat = (Config.freeMsg (s.epoch + 1) j).toNat % 2 ^ s.cfg.cpw % 2 ^ 32) ∧
      t.script = rest ∧ t.reads = s.reads

/-- R153: with no command pending and the host doing nothing, every piece of state keeps its value (that the idle machine
is a step that changes nothing is log entry 5). -/
def Obligations.IdleKeepsState : Prop :=
  ∀ s : State, s.busy = false → s.script = [] → step s = .next s

/-! The commands, each whole: its errors in order, its result, and what it leaves unchanged -/

/-- R138. -/
def Obligations.NopClearsTheReport : Prop :=
  decode 0 = .instr .nop ∧
    ∀ s : State, ∃ t, exec .nop s = .next t ∧
      t = { s with cmdl := none, err := false, trunc := false, found := false, ecode := 0, errinfo := 0 } ∧
      t.statusWord = 0

/-- R100. -/
def Obligations.CapComputesTheCapacity : Prop :=
  decode 1 = .instr .cap ∧
    ∀ s : State, ∃ t, exec .cap s = .next t ∧
      t = { s with cmdl := none, err := false, trunc := false, found := false, ecode := 0, errinfo := 0,
                   capr := t.capr } ∧
      t.capr.toNat = s.width.toNat * s.height.toNat * 3 / 8 ∧ t.capr.toNat ≤ 1610563584

/-- R91. -/
def Obligations.PackStoresTextBits : Prop :=
  decode 2 = .instr .pack ∧
    ∀ s : State, s.cfg.ok →
      (s.cfg.msgSize < s.mlen.toNat → exec .pack s = .next (s.failedWith 4 0)) ∧
        (s.mlen.toNat ≤ s.cfg.msgSize → s.cfg.bitSize < 8 * s.mlen.toNat →
          exec .pack s = .next (s.failedWith 5 1)) ∧
        (s.mlen.toNat ≤ s.cfg.msgSize → 8 * s.mlen.toNat ≤ s.cfg.bitSize →
          (∀ j, j < s.mlen.toNat → 256 ≤ (s.readMsg j).toNat → (∀ i, i < j → (s.readMsg i).toNat < 256) →
            exec .pack s = .next (s.failedWith 2 (BitVec.ofNat 32 j))) ∧
            (s.textOk →
              ∃ t, exec .pack s = .next t ∧ t.succeeded false false ∧ s.sameRest t ∧ s.samePix t ∧ s.sameMsg t ∧
                t.mlen = s.mlen ∧ t.blen.toNat = 8 * s.mlen.toNat ∧
                (∀ k j, k < s.mlen.toNat → j < 8 →
                  (t.readBit (8 * k + j)).toNat = (s.readMsg k).toNat / 2 ^ (7 - j) % 2) ∧
                ∀ i, 8 * s.mlen.toNat ≤ i → t.readBit i = s.readBit i))

/-- R93. -/
def Obligations.UnpackStoresBitsText : Prop :=
  decode 3 = .instr .unpack ∧
    ∀ s : State, s.cfg.ok →
      (s.cfg.msgSize < s.blen.toNat / 8 → exec .unpack s = .next (s.failedWith 4 1)) ∧
        (s.blen.toNat / 8 ≤ s.cfg.msgSize → s.cfg.bitSize < s.blen.toNat →
          exec .unpack s = .next (s.failedWith 5 0)) ∧
        (s.blen.toNat / 8 ≤ s.cfg.msgSize → s.blen.toNat ≤ s.cfg.bitSize →
          ∃ t, exec .unpack s = .next t ∧ t.succeeded false false ∧ s.sameRest t ∧ s.samePix t ∧ s.sameBit t ∧
            t.blen = s.blen ∧ t.mlen.toNat = s.blen.toNat / 8 ∧
            (∀ k, k < s.blen.toNat / 8 → (t.readMsg k).toNat = s.bitsValue k ∧ (t.readMsg k).toNat < 256) ∧
            ∀ j, s.blen.toNat / 8 ≤ j → t.readMsg j = s.readMsg j)

/-- R106, with the scan cell `(k div 3)*NCH + (k mod 3)` written out. -/
def Obligations.EncbSetsParities : Prop :=
  decode 4 = .instr .encb ∧
    ∀ s : State, s.cfg.ok →
      (s.cfg.pixSize < s.np * s.cfg.nch → exec .encb s = .next (s.failedWith 3 0)) ∧
        (s.np * s.cfg.nch ≤ s.cfg.pixSize → s.cfg.bitSize < s.blen.toNat →
          exec .encb s = .next (s.failedWith 5 0)) ∧
        (s.np * s.cfg.nch ≤ s.cfg.pixSize → s.blen.toNat ≤ s.cfg.bitSize →
          ∃ t, exec .encb s = .next t ∧ t.succeeded (decide (s.nc < s.blen.toNat)) false ∧ s.sameRest t ∧
            s.sameBit t ∧ s.sameMsg t ∧ t.mlen = s.mlen ∧ t.blen = s.blen ∧
            (∀ k, k < min s.blen.toNat s.nc →
              (t.readPix (k / 3 * s.cfg.nch + k % 3)).toNat =
                parityRule (s.readPix (k / 3 * s.cfg.nch + k % 3)).toNat (s.readBit k).toNat) ∧
            ∀ a, (∀ k, k < min s.blen.toNat s.nc → a ≠ k / 3 * s.cfg.nch + k % 3) → t.readPix a = s.readPix a)

/-- R116, with the scan cell written out. -/
def Obligations.DecbReadsParities : Prop :=
  decode 5 = .instr .decb ∧
    ∀ s : State, s.cfg.ok →
      (s.cfg.pixSize < s.np * s.cfg.nch → exec .decb s = .next (s.failedWith 3 0)) ∧
        (s.np * s.cfg.nch ≤ s.cfg.pixSize → s.cfg.bitSize < s.nc → exec .decb s = .next (s.failedWith 5 1)) ∧
        (s.np * s.cfg.nch ≤ s.cfg.pixSize → s.nc ≤ s.cfg.bitSize →
          ∃ t, exec .decb s = .next t ∧ t.succeeded false false ∧ s.sameRest t ∧ s.samePix t ∧ s.sameMsg t ∧
            t.mlen = s.mlen ∧ t.blen.toNat = s.nc ∧
            (∀ k, k < s.nc → (t.readBit k).toNat = (s.readPix (k / 3 * s.cfg.nch + k % 3)).toNat % 2) ∧
            ∀ i, s.nc ≤ i → t.readBit i = s.readBit i)

/-- R121, with `Keep` of R122. -/
def Obligations.FrameAppendsStop : Prop :=
  decode 6 = .instr .frame ∧
    ∀ (s : State) (keep : Nat), s.cfg.ok → keep = keepLen s.mlen.toNat (3 * s.width.toNat * s.height.toNat / 8) →
      (s.cfg.msgSize < s.mlen.toNat → exec .frame s = .next (s.failedWith 4 0)) ∧
        (s.mlen.toNat ≤ s.cfg.msgSize → s.cfg.msgSize < keep + 4 → exec .frame s = .next (s.failedWith 4 1)) ∧
        (s.mlen.toNat ≤ s.cfg.msgSize → keep + 4 ≤ s.cfg.msgSize →
          ∃ t, exec .frame s = .next t ∧ t.succeeded (decide (keep < s.mlen.toNat)) false ∧ s.sameRest t ∧
            s.samePix t ∧ s.sameBit t ∧ t.blen = s.blen ∧ t.mlen.toNat = keep + 4 ∧ t.readMsg keep = 83 ∧
            t.readMsg (keep + 1) = 84 ∧ t.readMsg (keep + 2) = 79 ∧ t.readMsg (keep + 3) = 80 ∧
            ∀ j, (j < keep ∨ keep + 4 ≤ j) → t.readMsg j = s.readMsg j)

/-- R124, with `Find` of R123 as the first index at which the terminator stands. -/
def Obligations.UnframeCutsAtFirstStop : Prop :=
  decode 7 = .instr .unframe ∧
    ∀ s : State,
      (s.cfg.msgSize < s.mlen.toNat → exec .unframe s = .next (s.failedWith 4 0)) ∧
        (s.mlen.toNat ≤ s.cfg.msgSize →
          ∃ t, exec .unframe s = .next t ∧ s.sameRest t ∧ s.samePix t ∧ s.sameBit t ∧ s.sameMsg t ∧
            t.blen = s.blen ∧
            (∀ r, s.firstStopAt s.mlen.toNat r → t.succeeded false true ∧ t.mlen.toNat = r) ∧
            ((∀ r, ¬s.stopAt s.mlen.toNat r) → t.succeeded false false ∧ t.mlen = s.mlen))

/-- R130, with `keep` of R122 and the scan cell written out. -/
def Obligations.HideEncodesTheMessage : Prop :=
  decode 8 = .instr .hide ∧
    ∀ (s : State) (keep : Nat), s.cfg.ok → keep = keepLen s.mlen.toNat s.capv →
      (s.cfg.pixSize < s.np * s.cfg.nch → exec .hide s = .next (s.failedWith 3 0)) ∧
        (s.np * s.cfg.nch ≤ s.cfg.pixSize →
          (s.cfg.msgSize < s.mlen.toNat → exec .hide s = .next (s.failedWith 4 0)) ∧
            (s.mlen.toNat ≤ s.cfg.msgSize → s.cfg.msgSize < keep + 4 → exec .hide s = .next (s.failedWith 4 1)) ∧
            (s.mlen.toNat ≤ s.cfg.msgSize → keep + 4 ≤ s.cfg.msgSize → s.cfg.bitSize < 8 * (keep + 4) →
              exec .hide s = .next (s.failedWith 5 1)) ∧
            (s.mlen.toNat ≤ s.cfg.msgSize → keep + 4 ≤ s.cfg.msgSize → 8 * (keep + 4) ≤ s.cfg.bitSize →
              (∀ j, j < s.mlen.toNat → 256 ≤ (s.readMsg j).toNat → (∀ i, i < j → (s.readMsg i).toNat < 256) →
                exec .hide s = .next (s.failedWith 2 (BitVec.ofNat 32 j))) ∧
                (s.textOk →
                  ∃ t, exec .hide s = .next t ∧
                    t.succeeded (decide (keep < s.mlen.toNat ∨ s.nc < 8 * (keep + 4))) false ∧ s.sameRest t ∧
                    t.mlen.toNat = keep + 4 ∧ t.blen.toNat = 8 * (keep + 4) ∧ t.readMsg keep = 83 ∧
                    t.readMsg (keep + 1) = 84 ∧ t.readMsg (keep + 2) = 79 ∧ t.readMsg (keep + 3) = 80 ∧
                    (∀ j, (j < keep ∨ keep + 4 ≤ j) → t.readMsg j = s.readMsg j) ∧
                    (∀ k j, k < keep + 4 → j < 8 →
                      (t.readBit (8 * k + j)).toNat = (t.readMsg k).toNat / 2 ^ (7 - j) % 2) ∧
                    (∀ i, 8 * (keep + 4) ≤ i → t.readBit i = s.readBit i) ∧
                    (∀ k, k < min (8 * (keep + 4)) s.nc →
                      (t.readPix (k / 3 * s.cfg.nch + k % 3)).toNat =
                        parityRule (s.readPix (k / 3 * s.cfg.nch + k % 3)).toNat (t.readBit k).toNat) ∧
                    ∀ a, (∀ k, k < min (8 * (keep + 4)) s.nc → a ≠ k / 3 * s.cfg.nch + k % 3) →
                      t.readPix a = s.readPix a)))

/-- R132, with the scan cell written out and `Find` as the first index at which the terminator stands. -/
def Obligations.RevealDecodesTheImage : Prop :=
  decode 9 = .instr .reveal ∧
    ∀ s : State, s.cfg.ok →
      (s.cfg.pixSize < s.np * s.cfg.nch → exec .reveal s = .next (s.failedWith 3 0)) ∧
        (s.np * s.cfg.nch ≤ s.cfg.pixSize →
          (s.cfg.msgSize < s.capv → exec .reveal s = .next (s.failedWith 4 1)) ∧
            (s.capv ≤ s.cfg.msgSize → s.cfg.bitSize < s.nc → exec .reveal s = .next (s.failedWith 5 1)) ∧
            (s.capv ≤ s.cfg.msgSize → s.nc ≤ s.cfg.bitSize →
              ∃ t, exec .reveal s = .next t ∧ s.sameRest t ∧ s.samePix t ∧ t.blen.toNat = s.nc ∧
                (∀ k, k < s.nc → (t.readBit k).toNat = (s.readPix (k / 3 * s.cfg.nch + k % 3)).toNat % 2) ∧
                (∀ i, s.nc ≤ i → t.readBit i = s.readBit i) ∧
                (∀ k, k < s.capv → (t.readMsg k).toNat = t.bitsValue k) ∧
                (∀ j, s.capv ≤ j → t.readMsg j = s.readMsg j) ∧
                (∀ r, t.firstStopAt s.capv r → t.succeeded false true ∧ t.mlen.toNat = r) ∧
                ((∀ r, ¬t.stopAt s.capv r) → t.succeeded false false ∧ t.mlen.toNat = s.capv)))

/-! Errors -/

/-- R143, R144, R145, R147: a word that is no command reports `IllCmd` first of all; a command reports exactly the first
cause that holds, in the fixed order, and succeeds when none holds. -/
def Obligations.ReportedErrorIsFirst : Prop :=
  (∀ (s : State) (c : Word), s.engineTurn = true → s.cmdl = some c → ¬legalWord c → step s = .next (s.failedWith 1 c)) ∧
    ∀ (i : Instr) (s : State),
      ((∀ code info, ¬raises i s code info) → ∃ t, exec i s = .next t ∧ t.err = false) ∧
        ∀ code info, raises i s code info →
          (∀ code' info', raises i s code' info' → errRank code info ≤ errRank code' info') →
            exec i s = .next (s.failedWith (BitVec.ofNat 4 code) (BitVec.ofNat 32 info))

/-- R146: the completion of a command that ends with `ERR = 1`, whatever word was latched, changes nothing but the
report, and the code is one of 1 to 5. -/
def Obligations.FailedCommandReportsOnly : Prop :=
  ∀ s t : State, s.engineTurn = true → step s = .next t → t.err = true →
    t = s.failedWith t.ecode t.errinfo ∧ 1 ≤ t.ecode.toNat ∧ t.ecode.toNat ≤ 5

/-- R7: with `CPW = 8` no command raises `Char`. -/
def Obligations.NoCharErrorWithEightBitCells : Prop :=
  ∀ (i : Instr) (s t : State), s.cfg.cpw = 8 → s.memOk → exec i s = .next t → t.ecode ≠ 2

/-! The pure functions -/

/-- R105: `SetParity` is the rule's function, sets the parity, moves a value by at most 1, keeps bits 7:1 and is
idempotent. -/
def Obligations.SetParitySetsBitZero : Prop :=
  ∀ (v : Channel) (b : Bit), (setParity v b).toNat = parityRule v.toNat b.toNat ∧
    (setParity v b).toNat % 2 = b.toNat ∧ (setParity v b).toNat / 2 = v.toNat / 2 ∧
    (setParity v b).toNat = v.toNat - v.toNat % 2 + b.toNat ∧ setParity (setParity v b) b = setParity v b

/-- R90: the length of `TextToBits` and each of its bits. -/
def Obligations.TextToBitsLayout : Prop :=
  ∀ t : List CodePoint, (textToBits t).length = 8 * t.length ∧
    ∀ k j (hk : k < t.length), j < 8 →
      ((textToBits t)[8 * k + j]?).map BitVec.toNat = some (t[k].toNat / 2 ^ (7 - j) % 2)

/-- R92: the length of `BitsToText` and each of its characters, all below 256. -/
def Obligations.BitsToTextValues : Prop :=
  ∀ b : List Bit, (bitsToText b).length = b.length / 8 ∧
    ∀ k, k < b.length / 8 → ∃ c, (bitsToText b)[k]? = some c ∧ c.toNat < 256 ∧
      c.toNat = ((List.range 8).map (fun j => (b.getD (8 * k + j) 0).toNat * 2 ^ (7 - j))).sum

/-- R94: the four laws. -/
def Obligations.CodecLaws : Prop :=
  (∀ c : CodePoint, c.toNat < 256 → bitsToText (bits8 c) = [c]) ∧
    (∀ b0 b1 b2 b3 b4 b5 b6 b7 : Bit,
      bits8 (val8 b0 b1 b2 b3 b4 b5 b6 b7) = [b0, b1, b2, b3, b4, b5, b6, b7]) ∧
    (∀ t : List CodePoint, (∀ c ∈ t, c.toNat < 256) → bitsToText (textToBits t) = t) ∧
    ∀ b : List Bit, textToBits (bitsToText b) = b.take (8 * (b.length / 8))

/-- R122: `Keep` in its two regimes, and that in regime A every bit of the framed message finds a channel. -/
def Obligations.KeepRegimes : Prop :=
  (∀ n cap, 4 ≤ cap → keepLen n cap = min n (cap - 4) ∧ keepLen n cap + 4 ≤ cap) ∧
    (∀ n cap, cap < 4 → keepLen n cap = n) ∧
    ∀ n nc, 4 ≤ nc / 8 → 8 * (keepLen n (nc / 8) + 4) ≤ 8 * (nc / 8) ∧ 8 * (nc / 8) ≤ nc

/-- R123: `Find` is the least index at which the terminator stands, `none` when there is none. -/
def Obligations.FindIsLeastIndex : Prop :=
  ∀ (t : List CodePoint) (i : Nat), findStop t = some i ↔
    (t.drop i).take 4 = [83, 84, 79, 80] ∧ ∀ j, j < i → (t.drop j).take 4 ≠ [83, 84, 79, 80]

/-- R125: "STOP" has no border (no proper prefix of it is a proper suffix); after a text the terminator is first found at
the end exactly when it does not stand in the text; so `frame` then `unframe`, when FRAME drops nothing, gives the message
back exactly when it does not contain "STOP". -/
def Obligations.StopHasNoBorder : Prop :=
  (∀ n, 1 ≤ n → n ≤ 3 → terminator.take n ≠ terminator.drop (4 - n)) ∧
    (∀ t : List CodePoint, (∀ c ∈ t, c.toNat < 256) →
      (findStop (t ++ terminator) = some t.length ↔ findStop t = none)) ∧
    ∀ s t : State, s.cfg.ok → exec .frame s = .next t → t.err = false → t.trunc = false →
      ∃ u, exec .unframe t = .next u ∧
        ((u.mlen = s.mlen ∧ ∀ j, j < s.mlen.toNat → u.readMsg j = s.readMsg j) ↔ findStop s.text = none)

/-! Laws of several commands -/

/-- R95: decoding inverts encoding, and in commands: `pack` then `unpack` leaves the text as it was. -/
def Obligations.PackThenUnpackKeepsText : Prop :=
  (∀ t : List CodePoint, (∀ c ∈ t, c.toNat < 256) → bitsToText (textToBits t) = t) ∧
    ∀ s : State, s.cfg.ok → s.mlen.toNat ≤ s.cfg.msgSize → 8 * s.mlen.toNat ≤ s.cfg.bitSize → s.textOk →
      ∃ t u, exec .pack s = .next t ∧ exec .unpack t = .next u ∧ t.err = false ∧ u.err = false ∧
        u.mlen = s.mlen ∧ ∀ j, j < s.mlen.toNat → u.readMsg j = s.readMsg j

/-- R107: the parity invariant. -/
def Obligations.ParityInvariant : Prop :=
  ∀ s t : State, s.cfg.ok → exec .encb s = .next t → t.err = false →
    (∀ k, k < min s.blen.toNat s.nc →
        (t.readPix (scanAddr s.cfg k)).toNat % 2 = (s.readBit k).toNat ∧
          (t.readPix (scanAddr s.cfg k)).toNat / 2 = (s.readPix (scanAddr s.cfg k)).toNat / 2) ∧
      (∀ k, min s.blen.toNat s.nc ≤ k → k < s.nc →
        t.readPix (scanAddr s.cfg k) = s.readPix (scanAddr s.cfg k)) ∧
      ∀ a, (∀ k, k < s.nc → a ≠ scanAddr s.cfg k) → t.readPix a = s.readPix a

/-- R108: the new value of a scanned channel depends on its old value and its bit alone. -/
def Obligations.PixelsAreIndependent : Prop :=
  ∀ (s s' t t' : State) (k : Nat), s.cfg.ok → s'.cfg = s.cfg → exec .encb s = .next t → t.err = false →
    exec .encb s' = .next t' → t'.err = false → k < min s.blen.toNat s.nc → k < min s'.blen.toNat s'.nc →
    s.readPix (scanAddr s.cfg k) = s'.readPix (scanAddr s.cfg k) → s.readBit k = s'.readBit k →
    t.readPix (scanAddr s.cfg k) = t'.readPix (scanAddr s.cfg k)

/-- R117: `encb` then `decb`. -/
def Obligations.DecbAfterEncb : Prop :=
  ∀ s : State, s.cfg.ok → s.np * s.cfg.nch ≤ s.cfg.pixSize → s.blen.toNat ≤ s.cfg.bitSize → s.nc ≤ s.cfg.bitSize →
    ∃ t u, exec .encb s = .next t ∧ exec .decb t = .next u ∧ t.err = false ∧ u.err = false ∧ u.blen.toNat = s.nc ∧
      (∀ k, k < min s.blen.toNat s.nc → u.readBit k = s.readBit k) ∧
      ∀ k, min s.blen.toNat s.nc ≤ k → k < s.nc →
        (u.readBit k).toNat = (s.readPix (scanAddr s.cfg k)).toNat % 2

/-- R106 (corner case), R105: a second `encb` with the same operands succeeds and changes nothing: every cell of `PIX` reads
as before, and every field but `PIX` (`BIT`, `MSG`, every register, `TRUNC`, the host's fields) is the same. -/
def Obligations.SecondEncbChangesNothing : Prop :=
  ∀ s t : State, s.cfg.ok → exec .encb s = .next t → t.err = false →
    ∃ u, exec .encb t = .next u ∧ u.err = false ∧ u = { t with pix := u.pix } ∧ ∀ a, u.readPix a = t.readPix a

/-- R124 (corner case): a second `unframe` finds nothing and keeps `MLEN`. -/
def Obligations.SecondUnframeFindsNothing : Prop :=
  ∀ s t : State, exec .unframe s = .next t → t.err = false →
    ∃ u, exec .unframe t = .next u ∧ u.err = false ∧ u.found = false ∧ u.mlen = t.mlen

/-- R131: where HIDE succeeds, the script `frame ; pack ; encb` succeeds and reaches the same `MSG`, `MLEN`, `BIT`, `BLEN`
and `PIX`; its last `TRUNC` is that of `encb` alone. -/
def Obligations.HideEqualsItsParts : Prop :=
  ∀ s t : State, s.cfg.ok → exec .hide s = .next t → t.err = false →
    ∃ a b c, exec .frame s = .next a ∧ exec .pack a = .next b ∧ exec .encb b = .next c ∧ a.err = false ∧
      b.err = false ∧ c.err = false ∧ c = { t with trunc := c.trunc } ∧
      c.trunc = decide (s.nc < 8 * (keepLen s.mlen.toNat s.capv + 4)) ∧ t.trunc = (a.trunc || c.trunc)

/-- R132 (corner cases): where REVEAL succeeds, the script `decb ; unpack ; unframe` reaches the same state. -/
def Obligations.RevealEqualsItsParts : Prop :=
  ∀ s t : State, s.cfg.ok → exec .reveal s = .next t → t.err = false →
    ∃ a b, exec .decb s = .next a ∧ exec .unpack a = .next b ∧ exec .unframe b = .next t ∧ a.err = false ∧
      b.err = false

/-- R134: the round trip. -/
def Obligations.HideRevealRoundTrip : Prop :=
  ∀ s : State, s.fits → s.mlen.toNat + 4 ≤ s.capv → findStop s.text = none →
    ∃ t u, exec .hide s = .next t ∧ exec .reveal t = .next u ∧ t.succeeded false false ∧ u.succeeded false true ∧
      u.mlen = s.mlen ∧ ∀ j, j < s.mlen.toNat → u.readMsg j = s.readMsg j

/-- R135: truncation. -/
def Obligations.HideRevealTruncates : Prop :=
  ∀ s : State, s.fits → 4 ≤ s.capv → s.capv - 4 < s.mlen.toNat → findStop (s.text.take (s.capv - 4)) = none →
    ∃ t u, exec .hide s = .next t ∧ exec .reveal t = .next u ∧ t.succeeded true false ∧
      t.text = s.text.take (s.capv - 4) ++ terminator ∧ u.succeeded false true ∧ u.mlen.toNat = s.capv - 4 ∧
      ∀ j, j < s.capv - 4 → u.readMsg j = s.readMsg j

/-- R136: the boundary: with a capacity of exactly `len(s) + 4`, HIDE writes the parities of the scan indices below
`8*CAPV` and leaves the other `NC mod 8` channels alone. -/
def Obligations.HideAtTheBoundary : Prop :=
  ∀ s : State, s.fits → s.capv = s.mlen.toNat + 4 →
    ∃ t, exec .hide s = .next t ∧ t.succeeded false false ∧
      (∀ k, k < 8 * s.capv →
        (t.readPix (scanAddr s.cfg k)).toNat % 2 = (t.readMsg (k / 8)).toNat / 2 ^ (7 - k % 8) % 2) ∧
      (∀ k, 8 * s.capv ≤ k → k < s.nc → t.readPix (scanAddr s.cfg k) = s.readPix (scanAddr s.cfg k)) ∧
      s.nc - 8 * s.capv = s.nc % 8

/-- R137: REVEAL on an image whose decoded text has no "STOP" leaves the whole decoded text. -/
def Obligations.RevealWithoutMessage : Prop :=
  ∀ s t : State, s.cfg.ok → exec .reveal s = .next t → t.err = false →
    findStop (bitsToText s.imageBits) = none →
    t.found = false ∧ t.mlen.toNat = s.capv ∧ t.text = bitsToText s.imageBits

/-! The pixel memory -/

/-- R54: the scan visits the first three channels of each pixel, pixels in row-major order. -/
def Obligations.ScanIsRowMajor : Prop :=
  (∀ (cfg : Config) (w h k : Nat), 0 < w → k < 3 * (w * h) →
      k / 3 % w < w ∧ k / 3 / w < h ∧ k % 3 < 3 ∧
        scanAddr cfg k = pixelCell cfg w (k / 3 % w) (k / 3 / w) (k % 3) ∧
        scanAddr cfg k = k / 3 * cfg.nch + k % 3) ∧
    ∀ (cfg : Config) (k : Nat), cfg.nch = 3 → scanAddr cfg k = k

/-- R55: `WIDTH` and `HEIGHT` enter the pixel commands only through their product, and an image encoded under one geometry
and decoded under another gives the same leading bits. -/
def Obligations.GeometryEntersAsProduct : Prop :=
  ∀ (s : State) (w h : Dim),
    (w.toNat * h.toNat = s.width.toNat * s.height.toNat →
      ∀ i t, exec i s = .next t →
        exec i { s with width := w, height := h } = .next { t with width := w, height := h }) ∧
      ∀ t u, s.cfg.ok → exec .encb s = .next t → t.err = false →
        exec .decb { t with width := w, height := h } = .next u → u.err = false →
        ∀ k, k < min s.blen.toNat s.nc → k < 3 * (w.toNat * h.toNat) → u.readBit k = s.readBit k

/-- R57: no command writes a channel with number 3 or more, and none reads one: on two states that differ only in such
cells a command does the same. -/
def Obligations.UpperChannelsUntouched : Prop :=
  ∀ (i : Instr) (s t : State), s.cfg.ok → exec i s = .next t →
    (∀ a, upperCell s.cfg a → t.readPix a = s.readPix a) ∧
      ∀ m : Memory 8, (∀ a, ¬upperCell s.cfg a → State.readPix { s with pix := m } a = s.readPix a) →
        ∃ m', exec i { s with pix := m } = .next { t with pix := m' } ∧
          ∀ a, ¬upperCell s.cfg a → State.readPix { t with pix := m' } a = t.readPix a

/-- R168: PIX is written by ENCB and HIDE only, and they change bit 0 of a channel and nothing else of it. -/
def Obligations.OnlyBitZeroOfPixChanges : Prop :=
  ∀ (i : Instr) (s t : State), exec i s = .next t →
    (i ≠ .encb → i ≠ .hide → ∀ a, t.readPix a = s.readPix a) ∧
      ∀ a, (t.readPix a).toNat / 2 = (s.readPix a).toNat / 2

/-! Rules of the whole machine -/

/-- R59: every cell of `MSG` a command writes gets a value below 256. -/
def Obligations.WrittenCharactersBelow256 : Prop :=
  ∀ (i : Instr) (s t : State) (j : Nat), exec i s = .next t →
    t.readMsg j = s.readMsg j ∨ (t.readMsg j).toNat < 256

/-- R25, R5, R21: every command completes, and none writes `WIDTH`, `HEIGHT`, the parameters or what is the host's. -/
def Obligations.NoCommandWritesDimensions : Prop :=
  ∀ (i : Instr) (s : State), ∃ t, exec i s = .next t ∧ t.busy = false ∧ t.cfg = s.cfg ∧ t.width = s.width ∧
    t.height = s.height ∧ t.epoch = s.epoch ∧ t.script = s.script ∧ t.reads = s.reads

/-- R29: `CAPR` is written by CAP and by no other command, and read by none. -/
def Obligations.CaprOnlyFromCap : Prop :=
  ∀ (i : Instr) (s t : State) (v : Word), exec i s = .next t →
    (i ≠ .cap → t.capr = s.capr ∧ exec i { s with capr := v } = .next { t with capr := v }) ∧
      (i = .cap → exec i { s with capr := v } = .next t)

/-- R30: the flags and the report are read by no command; each is set only by the commands the rule names. -/
def Obligations.FlagsReadByNoCommand : Prop :=
  ∀ (i : Instr) (s t : State), exec i s = .next t →
    (∀ (err trunc found : Bool) (code : BitVec 4) (info : Word),
        exec i { s with err := err, trunc := trunc, found := found, ecode := code, errinfo := info } =
          .next t) ∧
      (t.err = true → t.trunc = false ∧ t.found = false) ∧ (t.trunc = true → i ∈ [Instr.encb, .frame, .hide]) ∧
      (t.found = true → i ∈ [Instr.unframe, .reveal])

/-- R32: the bounds of the derived quantities. -/
def Obligations.DerivedQuantityBounds : Prop :=
  ∀ s : State, s.np = s.width.toNat * s.height.toNat ∧ s.np ≤ 4294836225 ∧ s.nc = 3 * s.np ∧ s.nc ≤ 12884508675 ∧
    s.capv = s.nc / 8 ∧ s.capv ≤ 1610563584

/-- R79: the expansions of the ten pseudo-statements; those of `wr`, `rd` and `wait` (R78) into the model's port
operations, of which `wait` is one (log entry 5); and the register numbers of R21. -/
def Obligations.PseudoStatementsExpand : Prop :=
  Stmt.expand (.cmd .nop) = [.regWrite 0 0, .wait] ∧ Stmt.expand (.cmd .cap) = [.regWrite 0 1, .wait] ∧
    Stmt.expand (.cmd .pack) = [.regWrite 0 2, .wait] ∧ Stmt.expand (.cmd .unpack) = [.regWrite 0 3, .wait] ∧
    Stmt.expand (.cmd .encb) = [.regWrite 0 4, .wait] ∧ Stmt.expand (.cmd .decb) = [.regWrite 0 5, .wait] ∧
    Stmt.expand (.cmd .frame) = [.regWrite 0 6, .wait] ∧ Stmt.expand (.cmd .unframe) = [.regWrite 0 7, .wait] ∧
    Stmt.expand (.cmd .hide) = [.regWrite 0 8, .wait] ∧ Stmt.expand (.cmd .reveal) = [.regWrite 0 9, .wait] ∧
    Stmt.expand .wait = [.wait] ∧
    [Reg.cmd, .status, .errinfo, .width, .height, .mlen, .blen, .capr].map Reg.num = [0, 1, 2, 3, 4, 5, 6, 7] ∧
    ∀ (r : Reg) (v : Word), Stmt.expand (.wr r v) = [.regWrite r.num v] ∧ Stmt.expand (.rd r) = [.regRead r.num]

/-- R79, R78, R75: on an idle machine the pseudo-statement of a command issues its word, completes that command and ends
with the host's `wait`, in three steps, for every command and whatever follows. -/
def Obligations.PseudoStatementRunsTheCommand : Prop :=
  ∀ (s : State) (i : Instr) (rest : List HostOp), s.busy = false → s.script = Stmt.expand (.cmd i) ++ rest →
    ∃ t, exec i { s with script := .wait :: rest, cmdl := some (encode i) } = .next t ∧ t.busy = false ∧
      core.run 3 s = .next { t with script := rest }

/-! The invariant -/

/-- The invariant holds after a reset in every legal configuration (R37). -/
def Obligations.InvAfterReset : Prop :=
  State.reset.Inv ∧ ∀ (cfg : Config) (epoch : Nat), cfg.ok → (State.resetOf cfg epoch).Inv

/-- Every step keeps the invariant: the parameters stay legal, every written cell exists and holds a value of its width,
the memories stay canonical, the report stays one the spec knows and `CAPR` stays below its bound. -/
def Obligations.StepKeepsInv : Prop :=
  ∀ s t : State, s.Inv → step s = .next t → t.Inv
end

