-- ==== Sys2Proof/Laws/Memory.lean ====
section
/-! SUPPORT. The laws of a memory: a read after a write gives what was written and leaves every other cell alone, every
operation keeps the canonical form, and two canonical memories that read the same are the same data. -/

namespace Sys2Proof.Machine

variable {w : Nat}

@[simp] theorem Memory.get?_nil (a : Nat) : Memory.get? ([] : Memory w) a = none := rfl

/-- A read after a write. No canonical form is needed for it. -/
theorem Memory.get?_write (m : Memory w) (a b : Nat) (v : BitVec w) :
    (Memory.write m a v).get? b = if b = a then some v else m.get? b := by
  induction m with
  | nil => simp [Memory.write, Memory.get?]
  | cons c rest ih =>
    obtain ⟨x, u⟩ := c
    simp only [Memory.write]
    split
    · simp only [Memory.get?]
    · split
      · rename_i h
        subst h
        simp only [Memory.get?]
        split <;> rfl
      · rename_i h
        simp only [Memory.get?, ih]
        split_ifs with h1 h2 <;> first | rfl | omega

/-- A read after a run of writes. -/
theorem Memory.get?_writeSeq (m : Memory w) (a b : Nat) (vs : List (BitVec w)) :
    (Memory.writeSeq m a vs).get? b = if a ≤ b ∧ b < a + vs.length then vs[b - a]? else m.get? b := by
  induction vs generalizing m a with
  | nil => simp [Memory.writeSeq]
  | cons v vs ih =>
    simp only [Memory.writeSeq, ih, Memory.get?_write, List.length_cons]
    by_cases hb : b = a
    · subst hb
      simp
    · by_cases h : a + 1 ≤ b ∧ b < a + 1 + vs.length
      · have h' : a ≤ b ∧ b < a + (vs.length + 1) := by omega
        have e : b - a = (b - (a + 1)) + 1 := by omega
        simp [h, h', e]
      · have h' : ¬(a ≤ b ∧ b < a + (vs.length + 1)) := by omega
        rw [if_neg h, if_neg hb, if_neg h']

/-- The empty memory is canonical. -/
theorem Memory.wf_nil (size limit : Nat) : Memory.wf size limit ([] : Memory w) := by simp [Memory.wf]

/-- What stands in a memory after a write was written or stood there before. -/
theorem Memory.mem_write {m : Memory w} {a : Nat} {v : BitVec w} {c : Nat × BitVec w}
    (h : c ∈ Memory.write m a v) : c = (a, v) ∨ c ∈ m := by
  induction m with
  | nil => simpa [Memory.write] using h
  | cons d rest ih =>
    simp only [Memory.write] at h
    split at h
    · simpa using h
    · split at h
      · simp only [List.mem_cons] at h ⊢
        tauto
      · simp only [List.mem_cons] at h ⊢
        rcases h with h | h
        · exact Or.inr (Or.inl h)
        · rcases ih h with h | h
          · exact Or.inl h
          · exact Or.inr (Or.inr h)

/-- A write inside the memory of a value the cell can hold keeps the canonical form. -/
theorem Memory.wf_write {size limit : Nat} {m : Memory w} {a : Nat} {v : BitVec w}
    (hm : Memory.wf size limit m) (ha : a < size) (hv : v.toNat < limit) :
    Memory.wf size limit (Memory.write m a v) := by
  refine ⟨?_, ?_⟩
  · have hs := hm.1
    clear hm ha hv
    induction m with
    | nil => simp [Memory.write]
    | cons d rest ih =>
      obtain ⟨b, u⟩ := d
      rw [List.pairwise_cons] at hs
      simp only [Memory.write]
      split
      · rename_i h
        refine List.pairwise_cons.mpr ⟨?_, List.pairwise_cons.mpr hs⟩
        intro c hc
        rcases List.mem_cons.mp hc with hc | hc
        · subst hc
          exact h
        · exact Nat.lt_trans h (hs.1 c hc)
      · split
        · rename_i h
          subst h
          exact List.pairwise_cons.mpr hs
        · refine List.pairwise_cons.mpr ⟨?_, ih hs.2⟩
          intro c hc
          rcases Memory.mem_write hc with hc | hc
          · subst hc
            show b < a
            omega
          · exact hs.1 c hc
  · intro c hc
    rcases Memory.mem_write hc with hc | hc
    · subst hc
      exact ⟨ha, hv⟩
    · exact hm.2 c hc

/-- A run of writes inside the memory, each of a value the cell can hold, keeps the canonical form. -/
theorem Memory.wf_writeSeq {size limit : Nat} {m : Memory w} {a : Nat} {vs : List (BitVec w)}
    (hm : Memory.wf size limit m) (ha : vs ≠ [] → a + vs.length ≤ size) (hv : ∀ v ∈ vs, v.toNat < limit) :
    Memory.wf size limit (Memory.writeSeq m a vs) := by
  induction vs generalizing m a with
  | nil => exact hm
  | cons v vs ih =>
    have hlen : a + (vs.length + 1) ≤ size := by simpa using ha (by simp)
    have hv0 : v.toNat < limit := hv v (by simp)
    have hvs : ∀ x ∈ vs, x.toNat < limit := fun x hx => hv x (List.mem_cons_of_mem v hx)
    exact ih (Memory.wf_write hm (by omega) hv0) (by omega) hvs

/-- A stored value is one the memory lists. -/
theorem Memory.mem_of_get? {m : Memory w} {a : Nat} {v : BitVec w} (h : m.get? a = some v) : (a, v) ∈ m := by
  induction m with
  | nil => simp at h
  | cons c rest ih =>
    obtain ⟨b, u⟩ := c
    simp only [Memory.get?] at h
    split at h
    · rename_i hab
      obtain rfl : u = v := by simpa using h
      simp [hab]
    · exact List.mem_cons_of_mem _ (ih h)

/-- A cell beyond the addresses of a memory's entries holds no stored value. -/
theorem Memory.get?_eq_none {m : Memory w} {a : Nat} (h : ∀ c ∈ m, c.1 ≠ a) : m.get? a = none := by
  rcases hg : m.get? a with _ | v
  · rfl
  · exact absurd rfl (h _ (Memory.mem_of_get? hg))

/-- Equal memories are equal data: two canonical memories that hold the same in every cell are the same list. -/
theorem Memory.wf_ext {size limit size' limit' : Nat} {m n : Memory w} (hm : Memory.wf size limit m)
    (hn : Memory.wf size' limit' n) (h : ∀ a, m.get? a = n.get? a) : m = n := by
  have hm1 := hm.1
  have hn1 := hn.1
  clear hm hn
  induction m generalizing n with
  | nil =>
    cases n with
    | nil => rfl
    | cons d n => simpa [Memory.get?] using h d.1
  | cons c m ih =>
    cases n with
    | nil => simpa [Memory.get?] using h c.1
    | cons d n =>
      obtain ⟨a, u⟩ := c
      obtain ⟨b, v⟩ := d
      rw [List.pairwise_cons] at hm1 hn1
      have hab : a = b := by
        by_contra hne
        rcases Nat.lt_or_gt_of_ne hne with hlt | hlt
        · have hx : Memory.get? n a = none :=
            Memory.get?_eq_none fun c hc => by
              have := hn1.1 c hc
              simp only at this
              omega
          simpa [Memory.get?, hne, hx] using h a
        · have hx : Memory.get? m b = none :=
            Memory.get?_eq_none fun c hc => by
              have := hm1.1 c hc
              simp only at this
              omega
          simpa [Memory.get?, Ne.symm hne, hx] using (h b).symm
      subst hab
      have huv : u = v := by simpa [Memory.get?] using h a
      subst huv
      congr 1
      refine ih (fun x => ?_) hm1.2 hn1.2
      by_cases hx : x = a
      · subst hx
        rw [Memory.get?_eq_none fun c hc => Nat.ne_of_gt (hm1.1 c hc),
          Memory.get?_eq_none fun c hc => Nat.ne_of_gt (hn1.1 c hc)]
      · simpa [Memory.get?, hx] using h x

end Sys2Proof.Machine
end

