-- ==== Sys2Proof/Laws/State.lean ====
section
/-! SUPPORT. What each update of the state does to each field, by rfl, and what it leaves of the cell reads and of the
derived quantities, so that no later proof unfolds a record update. -/

namespace Sys2Proof.Machine

@[simp] theorem State.succeed_cfg (s : State) (t f : Bool) : (s.succeed t f).cfg = s.cfg := rfl
@[simp] theorem State.succeed_cmdl (s : State) (t f : Bool) : (s.succeed t f).cmdl = none := rfl
@[simp] theorem State.succeed_err (s : State) (t f : Bool) : (s.succeed t f).err = false := rfl
@[simp] theorem State.succeed_trunc (s : State) (t f : Bool) : (s.succeed t f).trunc = t := rfl
@[simp] theorem State.succeed_found (s : State) (t f : Bool) : (s.succeed t f).found = f := rfl
@[simp] theorem State.succeed_ecode (s : State) (t f : Bool) : (s.succeed t f).ecode = 0 := rfl
@[simp] theorem State.succeed_errinfo (s : State) (t f : Bool) : (s.succeed t f).errinfo = 0 := rfl
@[simp] theorem State.succeed_width (s : State) (t f : Bool) : (s.succeed t f).width = s.width := rfl
@[simp] theorem State.succeed_height (s : State) (t f : Bool) : (s.succeed t f).height = s.height := rfl
@[simp] theorem State.succeed_mlen (s : State) (t f : Bool) : (s.succeed t f).mlen = s.mlen := rfl
@[simp] theorem State.succeed_blen (s : State) (t f : Bool) : (s.succeed t f).blen = s.blen := rfl
@[simp] theorem State.succeed_capr (s : State) (t f : Bool) : (s.succeed t f).capr = s.capr := rfl
@[simp] theorem State.succeed_pix (s : State) (t f : Bool) : (s.succeed t f).pix = s.pix := rfl
@[simp] theorem State.succeed_bit (s : State) (t f : Bool) : (s.succeed t f).bit = s.bit := rfl
@[simp] theorem State.succeed_msg (s : State) (t f : Bool) : (s.succeed t f).msg = s.msg := rfl
@[simp] theorem State.succeed_epoch (s : State) (t f : Bool) : (s.succeed t f).epoch = s.epoch := rfl
@[simp] theorem State.succeed_script (s : State) (t f : Bool) : (s.succeed t f).script = s.script := rfl
@[simp] theorem State.succeed_reads (s : State) (t f : Bool) : (s.succeed t f).reads = s.reads := rfl

@[simp] theorem State.succeed_readPix (s : State) (t f : Bool) (ca : Nat) : (s.succeed t f).readPix ca = s.readPix ca := rfl
@[simp] theorem State.succeed_readBit (s : State) (t f : Bool) (ci : Nat) : (s.succeed t f).readBit ci = s.readBit ci := rfl
@[simp] theorem State.succeed_readMsg (s : State) (t f : Bool) (cj : Nat) : (s.succeed t f).readMsg cj = s.readMsg cj := rfl
@[simp] theorem State.succeed_np (s : State) (t f : Bool) : (s.succeed t f).np = s.np := rfl
@[simp] theorem State.succeed_nc (s : State) (t f : Bool) : (s.succeed t f).nc = s.nc := rfl
@[simp] theorem State.succeed_capv (s : State) (t f : Bool) : (s.succeed t f).capv = s.capv := rfl

@[simp] theorem State.raise_cfg (s : State) (e : Err) (v : Word) : (s.raise e v).cfg = s.cfg := rfl
@[simp] theorem State.raise_cmdl (s : State) (e : Err) (v : Word) : (s.raise e v).cmdl = none := rfl
@[simp] theorem State.raise_err (s : State) (e : Err) (v : Word) : (s.raise e v).err = true := rfl
@[simp] theorem State.raise_trunc (s : State) (e : Err) (v : Word) : (s.raise e v).trunc = false := rfl
@[simp] theorem State.raise_found (s : State) (e : Err) (v : Word) : (s.raise e v).found = false := rfl
@[simp] theorem State.raise_ecode (s : State) (e : Err) (v : Word) : (s.raise e v).ecode = e.code := rfl
@[simp] theorem State.raise_errinfo (s : State) (e : Err) (v : Word) : (s.raise e v).errinfo = v := rfl
@[simp] theorem State.raise_width (s : State) (e : Err) (v : Word) : (s.raise e v).width = s.width := rfl
@[simp] theorem State.raise_height (s : State) (e : Err) (v : Word) : (s.raise e v).height = s.height := rfl
@[simp] theorem State.raise_mlen (s : State) (e : Err) (v : Word) : (s.raise e v).mlen = s.mlen := rfl
@[simp] theorem State.raise_blen (s : State) (e : Err) (v : Word) : (s.raise e v).blen = s.blen := rfl
@[simp] theorem State.raise_capr (s : State) (e : Err) (v : Word) : (s.raise e v).capr = s.capr := rfl
@[simp] theorem State.raise_pix (s : State) (e : Err) (v : Word) : (s.raise e v).pix = s.pix := rfl
@[simp] theorem State.raise_bit (s : State) (e : Err) (v : Word) : (s.raise e v).bit = s.bit := rfl
@[simp] theorem State.raise_msg (s : State) (e : Err) (v : Word) : (s.raise e v).msg = s.msg := rfl
@[simp] theorem State.raise_epoch (s : State) (e : Err) (v : Word) : (s.raise e v).epoch = s.epoch := rfl
@[simp] theorem State.raise_script (s : State) (e : Err) (v : Word) : (s.raise e v).script = s.script := rfl
@[simp] theorem State.raise_reads (s : State) (e : Err) (v : Word) : (s.raise e v).reads = s.reads := rfl

@[simp] theorem State.raise_readPix (s : State) (e : Err) (v : Word) (ca : Nat) : (s.raise e v).readPix ca = s.readPix ca := rfl
@[simp] theorem State.raise_readBit (s : State) (e : Err) (v : Word) (ci : Nat) : (s.raise e v).readBit ci = s.readBit ci := rfl
@[simp] theorem State.raise_readMsg (s : State) (e : Err) (v : Word) (cj : Nat) : (s.raise e v).readMsg cj = s.readMsg cj := rfl
@[simp] theorem State.raise_np (s : State) (e : Err) (v : Word) : (s.raise e v).np = s.np := rfl
@[simp] theorem State.raise_nc (s : State) (e : Err) (v : Word) : (s.raise e v).nc = s.nc := rfl
@[simp] theorem State.raise_capv (s : State) (e : Err) (v : Word) : (s.raise e v).capv = s.capv := rfl

@[simp] theorem State.writePix_cfg (s : State) (a : Nat) (v : Channel) : (s.writePix a v).cfg = s.cfg := rfl
@[simp] theorem State.writePix_cmdl (s : State) (a : Nat) (v : Channel) : (s.writePix a v).cmdl = s.cmdl := rfl
@[simp] theorem State.writePix_err (s : State) (a : Nat) (v : Channel) : (s.writePix a v).err = s.err := rfl
@[simp] theorem State.writePix_trunc (s : State) (a : Nat) (v : Channel) : (s.writePix a v).trunc = s.trunc := rfl
@[simp] theorem State.writePix_found (s : State) (a : Nat) (v : Channel) : (s.writePix a v).found = s.found := rfl
@[simp] theorem State.writePix_ecode (s : State) (a : Nat) (v : Channel) : (s.writePix a v).ecode = s.ecode := rfl
@[simp] theorem State.writePix_errinfo (s : State) (a : Nat) (v : Channel) : (s.writePix a v).errinfo = s.errinfo := rfl
@[simp] theorem State.writePix_width (s : State) (a : Nat) (v : Channel) : (s.writePix a v).width = s.width := rfl
@[simp] theorem State.writePix_height (s : State) (a : Nat) (v : Channel) : (s.writePix a v).height = s.height := rfl
@[simp] theorem State.writePix_mlen (s : State) (a : Nat) (v : Channel) : (s.writePix a v).mlen = s.mlen := rfl
@[simp] theorem State.writePix_blen (s : State) (a : Nat) (v : Channel) : (s.writePix a v).blen = s.blen := rfl
@[simp] theorem State.writePix_capr (s : State) (a : Nat) (v : Channel) : (s.writePix a v).capr = s.capr := rfl
@[simp] theorem State.writePix_pix (s : State) (a : Nat) (v : Channel) : (s.writePix a v).pix = s.pix.write a v := rfl
@[simp] theorem State.writePix_bit (s : State) (a : Nat) (v : Channel) : (s.writePix a v).bit = s.bit := rfl
@[simp] theorem State.writePix_msg (s : State) (a : Nat) (v : Channel) : (s.writePix a v).msg = s.msg := rfl
@[simp] theorem State.writePix_epoch (s : State) (a : Nat) (v : Channel) : (s.writePix a v).epoch = s.epoch := rfl
@[simp] theorem State.writePix_script (s : State) (a : Nat) (v : Channel) : (s.writePix a v).script = s.script := rfl
@[simp] theorem State.writePix_reads (s : State) (a : Nat) (v : Channel) : (s.writePix a v).reads = s.reads := rfl

@[simp] theorem State.writePix_readBit (s : State) (a : Nat) (v : Channel) (ci : Nat) : (s.writePix a v).readBit ci = s.readBit ci := rfl
@[simp] theorem State.writePix_readMsg (s : State) (a : Nat) (v : Channel) (cj : Nat) : (s.writePix a v).readMsg cj = s.readMsg cj := rfl
@[simp] theorem State.writePix_np (s : State) (a : Nat) (v : Channel) : (s.writePix a v).np = s.np := rfl
@[simp] theorem State.writePix_nc (s : State) (a : Nat) (v : Channel) : (s.writePix a v).nc = s.nc := rfl
@[simp] theorem State.writePix_capv (s : State) (a : Nat) (v : Channel) : (s.writePix a v).capv = s.capv := rfl

@[simp] theorem State.writeBits_cfg (s : State) (i : Nat) (vs : List Bit) : (s.writeBits i vs).cfg = s.cfg := rfl
@[simp] theorem State.writeBits_cmdl (s : State) (i : Nat) (vs : List Bit) : (s.writeBits i vs).cmdl = s.cmdl := rfl
@[simp] theorem State.writeBits_err (s : State) (i : Nat) (vs : List Bit) : (s.writeBits i vs).err = s.err := rfl
@[simp] theorem State.writeBits_trunc (s : State) (i : Nat) (vs : List Bit) : (s.writeBits i vs).trunc = s.trunc := rfl
@[simp] theorem State.writeBits_found (s : State) (i : Nat) (vs : List Bit) : (s.writeBits i vs).found = s.found := rfl
@[simp] theorem State.writeBits_ecode (s : State) (i : Nat) (vs : List Bit) : (s.writeBits i vs).ecode = s.ecode := rfl
@[simp] theorem State.writeBits_errinfo (s : State) (i : Nat) (vs : List Bit) : (s.writeBits i vs).errinfo = s.errinfo := rfl
@[simp] theorem State.writeBits_width (s : State) (i : Nat) (vs : List Bit) : (s.writeBits i vs).width = s.width := rfl
@[simp] theorem State.writeBits_height (s : State) (i : Nat) (vs : List Bit) : (s.writeBits i vs).height = s.height := rfl
@[simp] theorem State.writeBits_mlen (s : State) (i : Nat) (vs : List Bit) : (s.writeBits i vs).mlen = s.mlen := rfl
@[simp] theorem State.writeBits_blen (s : State) (i : Nat) (vs : List Bit) : (s.writeBits i vs).blen = s.blen := rfl
@[simp] theorem State.writeBits_capr (s : State) (i : Nat) (vs : List Bit) : (s.writeBits i vs).capr = s.capr := rfl
@[simp] theorem State.writeBits_pix (s : State) (i : Nat) (vs : List Bit) : (s.writeBits i vs).pix = s.pix := rfl
@[simp] theorem State.writeBits_bit (s : State) (i : Nat) (vs : List Bit) : (s.writeBits i vs).bit = s.bit.writeSeq i vs := rfl
@[simp] theorem State.writeBits_msg (s : State) (i : Nat) (vs : List Bit) : (s.writeBits i vs).msg = s.msg := rfl
@[simp] theorem State.writeBits_epoch (s : State) (i : Nat) (vs : List Bit) : (s.writeBits i vs).epoch = s.epoch := rfl
@[simp] theorem State.writeBits_script (s : State) (i : Nat) (vs : List Bit) : (s.writeBits i vs).script = s.script := rfl
@[simp] theorem State.writeBits_reads (s : State) (i : Nat) (vs : List Bit) : (s.writeBits i vs).reads = s.reads := rfl

@[simp] theorem State.writeBits_readPix (s : State) (i : Nat) (vs : List Bit) (ca : Nat) : (s.writeBits i vs).readPix ca = s.readPix ca := rfl
@[simp] theorem State.writeBits_readMsg (s : State) (i : Nat) (vs : List Bit) (cj : Nat) : (s.writeBits i vs).readMsg cj = s.readMsg cj := rfl
@[simp] theorem State.writeBits_np (s : State) (i : Nat) (vs : List Bit) : (s.writeBits i vs).np = s.np := rfl
@[simp] theorem State.writeBits_nc (s : State) (i : Nat) (vs : List Bit) : (s.writeBits i vs).nc = s.nc := rfl
@[simp] theorem State.writeBits_capv (s : State) (i : Nat) (vs : List Bit) : (s.writeBits i vs).capv = s.capv := rfl

@[simp] theorem State.writeMsgs_cfg (s : State) (j : Nat) (vs : List CodePoint) : (s.writeMsgs j vs).cfg = s.cfg := rfl
@[simp] theorem State.writeMsgs_cmdl (s : State) (j : Nat) (vs : List CodePoint) : (s.writeMsgs j vs).cmdl = s.cmdl := rfl
@[simp] theorem State.writeMsgs_err (s : State) (j : Nat) (vs : List CodePoint) : (s.writeMsgs j vs).err = s.err := rfl
@[simp] theorem State.writeMsgs_trunc (s : State) (j : Nat) (vs : List CodePoint) : (s.writeMsgs j vs).trunc = s.trunc := rfl
@[simp] theorem State.writeMsgs_found (s : State) (j : Nat) (vs : List CodePoint) : (s.writeMsgs j vs).found = s.found := rfl
@[simp] theorem State.writeMsgs_ecode (s : State) (j : Nat) (vs : List CodePoint) : (s.writeMsgs j vs).ecode = s.ecode := rfl
@[simp] theorem State.writeMsgs_errinfo (s : State) (j : Nat) (vs : List CodePoint) : (s.writeMsgs j vs).errinfo = s.errinfo := rfl
@[simp] theorem State.writeMsgs_width (s : State) (j : Nat) (vs : List CodePoint) : (s.writeMsgs j vs).width = s.width := rfl
@[simp] theorem State.writeMsgs_height (s : State) (j : Nat) (vs : List CodePoint) : (s.writeMsgs j vs).height = s.height := rfl
@[simp] theorem State.writeMsgs_mlen (s : State) (j : Nat) (vs : List CodePoint) : (s.writeMsgs j vs).mlen = s.mlen := rfl
@[simp] theorem State.writeMsgs_blen (s : State) (j : Nat) (vs : List CodePoint) : (s.writeMsgs j vs).blen = s.blen := rfl
@[simp] theorem State.writeMsgs_capr (s : State) (j : Nat) (vs : List CodePoint) : (s.writeMsgs j vs).capr = s.capr := rfl
@[simp] theorem State.writeMsgs_pix (s : State) (j : Nat) (vs : List CodePoint) : (s.writeMsgs j vs).pix = s.pix := rfl
@[simp] theorem State.writeMsgs_bit (s : State) (j : Nat) (vs : List CodePoint) : (s.writeMsgs j vs).bit = s.bit := rfl
@[simp] theorem State.writeMsgs_msg (s : State) (j : Nat) (vs : List CodePoint) : (s.writeMsgs j vs).msg = s.msg.writeSeq j vs := rfl
@[simp] theorem State.writeMsgs_epoch (s : State) (j : Nat) (vs : List CodePoint) : (s.writeMsgs j vs).epoch = s.epoch := rfl
@[simp] theorem State.writeMsgs_script (s : State) (j : Nat) (vs : List CodePoint) : (s.writeMsgs j vs).script = s.script := rfl
@[simp] theorem State.writeMsgs_reads (s : State) (j : Nat) (vs : List CodePoint) : (s.writeMsgs j vs).reads = s.reads := rfl

@[simp] theorem State.writeMsgs_readPix (s : State) (j : Nat) (vs : List CodePoint) (ca : Nat) : (s.writeMsgs j vs).readPix ca = s.readPix ca := rfl
@[simp] theorem State.writeMsgs_readBit (s : State) (j : Nat) (vs : List CodePoint) (ci : Nat) : (s.writeMsgs j vs).readBit ci = s.readBit ci := rfl
@[simp] theorem State.writeMsgs_np (s : State) (j : Nat) (vs : List CodePoint) : (s.writeMsgs j vs).np = s.np := rfl
@[simp] theorem State.writeMsgs_nc (s : State) (j : Nat) (vs : List CodePoint) : (s.writeMsgs j vs).nc = s.nc := rfl
@[simp] theorem State.writeMsgs_capv (s : State) (j : Nat) (vs : List CodePoint) : (s.writeMsgs j vs).capv = s.capv := rfl

@[simp] theorem State.setWidth_cfg (s : State) (v : Dim) : (s.setWidth v).cfg = s.cfg := rfl
@[simp] theorem State.setWidth_cmdl (s : State) (v : Dim) : (s.setWidth v).cmdl = s.cmdl := rfl
@[simp] theorem State.setWidth_err (s : State) (v : Dim) : (s.setWidth v).err = s.err := rfl
@[simp] theorem State.setWidth_trunc (s : State) (v : Dim) : (s.setWidth v).trunc = s.trunc := rfl
@[simp] theorem State.setWidth_found (s : State) (v : Dim) : (s.setWidth v).found = s.found := rfl
@[simp] theorem State.setWidth_ecode (s : State) (v : Dim) : (s.setWidth v).ecode = s.ecode := rfl
@[simp] theorem State.setWidth_errinfo (s : State) (v : Dim) : (s.setWidth v).errinfo = s.errinfo := rfl
@[simp] theorem State.setWidth_width (s : State) (v : Dim) : (s.setWidth v).width = v := rfl
@[simp] theorem State.setWidth_height (s : State) (v : Dim) : (s.setWidth v).height = s.height := rfl
@[simp] theorem State.setWidth_mlen (s : State) (v : Dim) : (s.setWidth v).mlen = s.mlen := rfl
@[simp] theorem State.setWidth_blen (s : State) (v : Dim) : (s.setWidth v).blen = s.blen := rfl
@[simp] theorem State.setWidth_capr (s : State) (v : Dim) : (s.setWidth v).capr = s.capr := rfl
@[simp] theorem State.setWidth_pix (s : State) (v : Dim) : (s.setWidth v).pix = s.pix := rfl
@[simp] theorem State.setWidth_bit (s : State) (v : Dim) : (s.setWidth v).bit = s.bit := rfl
@[simp] theorem State.setWidth_msg (s : State) (v : Dim) : (s.setWidth v).msg = s.msg := rfl
@[simp] theorem State.setWidth_epoch (s : State) (v : Dim) : (s.setWidth v).epoch = s.epoch := rfl
@[simp] theorem State.setWidth_script (s : State) (v : Dim) : (s.setWidth v).script = s.script := rfl
@[simp] theorem State.setWidth_reads (s : State) (v : Dim) : (s.setWidth v).reads = s.reads := rfl

@[simp] theorem State.setWidth_readPix (s : State) (v : Dim) (ca : Nat) : (s.setWidth v).readPix ca = s.readPix ca := rfl
@[simp] theorem State.setWidth_readBit (s : State) (v : Dim) (ci : Nat) : (s.setWidth v).readBit ci = s.readBit ci := rfl
@[simp] theorem State.setWidth_readMsg (s : State) (v : Dim) (cj : Nat) : (s.setWidth v).readMsg cj = s.readMsg cj := rfl

@[simp] theorem State.setHeight_cfg (s : State) (v : Dim) : (s.setHeight v).cfg = s.cfg := rfl
@[simp] theorem State.setHeight_cmdl (s : State) (v : Dim) : (s.setHeight v).cmdl = s.cmdl := rfl
@[simp] theorem State.setHeight_err (s : State) (v : Dim) : (s.setHeight v).err = s.err := rfl
@[simp] theorem State.setHeight_trunc (s : State) (v : Dim) : (s.setHeight v).trunc = s.trunc := rfl
@[simp] theorem State.setHeight_found (s : State) (v : Dim) : (s.setHeight v).found = s.found := rfl
@[simp] theorem State.setHeight_ecode (s : State) (v : Dim) : (s.setHeight v).ecode = s.ecode := rfl
@[simp] theorem State.setHeight_errinfo (s : State) (v : Dim) : (s.setHeight v).errinfo = s.errinfo := rfl
@[simp] theorem State.setHeight_width (s : State) (v : Dim) : (s.setHeight v).width = s.width := rfl
@[simp] theorem State.setHeight_height (s : State) (v : Dim) : (s.setHeight v).height = v := rfl
@[simp] theorem State.setHeight_mlen (s : State) (v : Dim) : (s.setHeight v).mlen = s.mlen := rfl
@[simp] theorem State.setHeight_blen (s : State) (v : Dim) : (s.setHeight v).blen = s.blen := rfl
@[simp] theorem State.setHeight_capr (s : State) (v : Dim) : (s.setHeight v).capr = s.capr := rfl
@[simp] theorem State.setHeight_pix (s : State) (v : Dim) : (s.setHeight v).pix = s.pix := rfl
@[simp] theorem State.setHeight_bit (s : State) (v : Dim) : (s.setHeight v).bit = s.bit := rfl
@[simp] theorem State.setHeight_msg (s : State) (v : Dim) : (s.setHeight v).msg = s.msg := rfl
@[simp] theorem State.setHeight_epoch (s : State) (v : Dim) : (s.setHeight v).epoch = s.epoch := rfl
@[simp] theorem State.setHeight_script (s : State) (v : Dim) : (s.setHeight v).script = s.script := rfl
@[simp] theorem State.setHeight_reads (s : State) (v : Dim) : (s.setHeight v).reads = s.reads := rfl

@[simp] theorem State.setHeight_readPix (s : State) (v : Dim) (ca : Nat) : (s.setHeight v).readPix ca = s.readPix ca := rfl
@[simp] theorem State.setHeight_readBit (s : State) (v : Dim) (ci : Nat) : (s.setHeight v).readBit ci = s.readBit ci := rfl
@[simp] theorem State.setHeight_readMsg (s : State) (v : Dim) (cj : Nat) : (s.setHeight v).readMsg cj = s.readMsg cj := rfl

@[simp] theorem State.setMlen_cfg (s : State) (v : Word) : (s.setMlen v).cfg = s.cfg := rfl
@[simp] theorem State.setMlen_cmdl (s : State) (v : Word) : (s.setMlen v).cmdl = s.cmdl := rfl
@[simp] theorem State.setMlen_err (s : State) (v : Word) : (s.setMlen v).err = s.err := rfl
@[simp] theorem State.setMlen_trunc (s : State) (v : Word) : (s.setMlen v).trunc = s.trunc := rfl
@[simp] theorem State.setMlen_found (s : State) (v : Word) : (s.setMlen v).found = s.found := rfl
@[simp] theorem State.setMlen_ecode (s : State) (v : Word) : (s.setMlen v).ecode = s.ecode := rfl
@[simp] theorem State.setMlen_errinfo (s : State) (v : Word) : (s.setMlen v).errinfo = s.errinfo := rfl
@[simp] theorem State.setMlen_width (s : State) (v : Word) : (s.setMlen v).width = s.width := rfl
@[simp] theorem State.setMlen_height (s : State) (v : Word) : (s.setMlen v).height = s.height := rfl
@[simp] theorem State.setMlen_mlen (s : State) (v : Word) : (s.setMlen v).mlen = v := rfl
@[simp] theorem State.setMlen_blen (s : State) (v : Word) : (s.setMlen v).blen = s.blen := rfl
@[simp] theorem State.setMlen_capr (s : State) (v : Word) : (s.setMlen v).capr = s.capr := rfl
@[simp] theorem State.setMlen_pix (s : State) (v : Word) : (s.setMlen v).pix = s.pix := rfl
@[simp] theorem State.setMlen_bit (s : State) (v : Word) : (s.setMlen v).bit = s.bit := rfl
@[simp] theorem State.setMlen_msg (s : State) (v : Word) : (s.setMlen v).msg = s.msg := rfl
@[simp] theorem State.setMlen_epoch (s : State) (v : Word) : (s.setMlen v).epoch = s.epoch := rfl
@[simp] theorem State.setMlen_script (s : State) (v : Word) : (s.setMlen v).script = s.script := rfl
@[simp] theorem State.setMlen_reads (s : State) (v : Word) : (s.setMlen v).reads = s.reads := rfl

@[simp] theorem State.setMlen_readPix (s : State) (v : Word) (ca : Nat) : (s.setMlen v).readPix ca = s.readPix ca := rfl
@[simp] theorem State.setMlen_readBit (s : State) (v : Word) (ci : Nat) : (s.setMlen v).readBit ci = s.readBit ci := rfl
@[simp] theorem State.setMlen_readMsg (s : State) (v : Word) (cj : Nat) : (s.setMlen v).readMsg cj = s.readMsg cj := rfl
@[simp] theorem State.setMlen_np (s : State) (v : Word) : (s.setMlen v).np = s.np := rfl
@[simp] theorem State.setMlen_nc (s : State) (v : Word) : (s.setMlen v).nc = s.nc := rfl
@[simp] theorem State.setMlen_capv (s : State) (v : Word) : (s.setMlen v).capv = s.capv := rfl

@[simp] theorem State.setBlen_cfg (s : State) (v : Word) : (s.setBlen v).cfg = s.cfg := rfl
@[simp] theorem State.setBlen_cmdl (s : State) (v : Word) : (s.setBlen v).cmdl = s.cmdl := rfl
@[simp] theorem State.setBlen_err (s : State) (v : Word) : (s.setBlen v).err = s.err := rfl
@[simp] theorem State.setBlen_trunc (s : State) (v : Word) : (s.setBlen v).trunc = s.trunc := rfl
@[simp] theorem State.setBlen_found (s : State) (v : Word) : (s.setBlen v).found = s.found := rfl
@[simp] theorem State.setBlen_ecode (s : State) (v : Word) : (s.setBlen v).ecode = s.ecode := rfl
@[simp] theorem State.setBlen_errinfo (s : State) (v : Word) : (s.setBlen v).errinfo = s.errinfo := rfl
@[simp] theorem State.setBlen_width (s : State) (v : Word) : (s.setBlen v).width = s.width := rfl
@[simp] theorem State.setBlen_height (s : State) (v : Word) : (s.setBlen v).height = s.height := rfl
@[simp] theorem State.setBlen_mlen (s : State) (v : Word) : (s.setBlen v).mlen = s.mlen := rfl
@[simp] theorem State.setBlen_blen (s : State) (v : Word) : (s.setBlen v).blen = v := rfl
@[simp] theorem State.setBlen_capr (s : State) (v : Word) : (s.setBlen v).capr = s.capr := rfl
@[simp] theorem State.setBlen_pix (s : State) (v : Word) : (s.setBlen v).pix = s.pix := rfl
@[simp] theorem State.setBlen_bit (s : State) (v : Word) : (s.setBlen v).bit = s.bit := rfl
@[simp] theorem State.setBlen_msg (s : State) (v : Word) : (s.setBlen v).msg = s.msg := rfl
@[simp] theorem State.setBlen_epoch (s : State) (v : Word) : (s.setBlen v).epoch = s.epoch := rfl
@[simp] theorem State.setBlen_script (s : State) (v : Word) : (s.setBlen v).script = s.script := rfl
@[simp] theorem State.setBlen_reads (s : State) (v : Word) : (s.setBlen v).reads = s.reads := rfl

@[simp] theorem State.setBlen_readPix (s : State) (v : Word) (ca : Nat) : (s.setBlen v).readPix ca = s.readPix ca := rfl
@[simp] theorem State.setBlen_readBit (s : State) (v : Word) (ci : Nat) : (s.setBlen v).readBit ci = s.readBit ci := rfl
@[simp] theorem State.setBlen_readMsg (s : State) (v : Word) (cj : Nat) : (s.setBlen v).readMsg cj = s.readMsg cj := rfl
@[simp] theorem State.setBlen_np (s : State) (v : Word) : (s.setBlen v).np = s.np := rfl
@[simp] theorem State.setBlen_nc (s : State) (v : Word) : (s.setBlen v).nc = s.nc := rfl
@[simp] theorem State.setBlen_capv (s : State) (v : Word) : (s.setBlen v).capv = s.capv := rfl

@[simp] theorem State.setCapr_cfg (s : State) (v : Word) : (s.setCapr v).cfg = s.cfg := rfl
@[simp] theorem State.setCapr_cmdl (s : State) (v : Word) : (s.setCapr v).cmdl = s.cmdl := rfl
@[simp] theorem State.setCapr_err (s : State) (v : Word) : (s.setCapr v).err = s.err := rfl
@[simp] theorem State.setCapr_trunc (s : State) (v : Word) : (s.setCapr v).trunc = s.trunc := rfl
@[simp] theorem State.setCapr_found (s : State) (v : Word) : (s.setCapr v).found = s.found := rfl
@[simp] theorem State.setCapr_ecode (s : State) (v : Word) : (s.setCapr v).ecode = s.ecode := rfl
@[simp] theorem State.setCapr_errinfo (s : State) (v : Word) : (s.setCapr v).errinfo = s.errinfo := rfl
@[simp] theorem State.setCapr_width (s : State) (v : Word) : (s.setCapr v).width = s.width := rfl
@[simp] theorem State.setCapr_height (s : State) (v : Word) : (s.setCapr v).height = s.height := rfl
@[simp] theorem State.setCapr_mlen (s : State) (v : Word) : (s.setCapr v).mlen = s.mlen := rfl
@[simp] theorem State.setCapr_blen (s : State) (v : Word) : (s.setCapr v).blen = s.blen := rfl
@[simp] theorem State.setCapr_capr (s : State) (v : Word) : (s.setCapr v).capr = v := rfl
@[simp] theorem State.setCapr_pix (s : State) (v : Word) : (s.setCapr v).pix = s.pix := rfl
@[simp] theorem State.setCapr_bit (s : State) (v : Word) : (s.setCapr v).bit = s.bit := rfl
@[simp] theorem State.setCapr_msg (s : State) (v : Word) : (s.setCapr v).msg = s.msg := rfl
@[simp] theorem State.setCapr_epoch (s : State) (v : Word) : (s.setCapr v).epoch = s.epoch := rfl
@[simp] theorem State.setCapr_script (s : State) (v : Word) : (s.setCapr v).script = s.script := rfl
@[simp] theorem State.setCapr_reads (s : State) (v : Word) : (s.setCapr v).reads = s.reads := rfl

@[simp] theorem State.setCapr_readPix (s : State) (v : Word) (ca : Nat) : (s.setCapr v).readPix ca = s.readPix ca := rfl
@[simp] theorem State.setCapr_readBit (s : State) (v : Word) (ci : Nat) : (s.setCapr v).readBit ci = s.readBit ci := rfl
@[simp] theorem State.setCapr_readMsg (s : State) (v : Word) (cj : Nat) : (s.setCapr v).readMsg cj = s.readMsg cj := rfl
@[simp] theorem State.setCapr_np (s : State) (v : Word) : (s.setCapr v).np = s.np := rfl
@[simp] theorem State.setCapr_nc (s : State) (v : Word) : (s.setCapr v).nc = s.nc := rfl
@[simp] theorem State.setCapr_capv (s : State) (v : Word) : (s.setCapr v).capv = s.capv := rfl

@[simp] theorem State.setScript_cfg (s : State) (ops : List HostOp) : (s.setScript ops).cfg = s.cfg := rfl
@[simp] theorem State.setScript_cmdl (s : State) (ops : List HostOp) : (s.setScript ops).cmdl = s.cmdl := rfl
@[simp] theorem State.setScript_err (s : State) (ops : List HostOp) : (s.setScript ops).err = s.err := rfl
@[simp] theorem State.setScript_trunc (s : State) (ops : List HostOp) : (s.setScript ops).trunc = s.trunc := rfl
@[simp] theorem State.setScript_found (s : State) (ops : List HostOp) : (s.setScript ops).found = s.found := rfl
@[simp] theorem State.setScript_ecode (s : State) (ops : List HostOp) : (s.setScript ops).ecode = s.ecode := rfl
@[simp] theorem State.setScript_errinfo (s : State) (ops : List HostOp) : (s.setScript ops).errinfo = s.errinfo := rfl
@[simp] theorem State.setScript_width (s : State) (ops : List HostOp) : (s.setScript ops).width = s.width := rfl
@[simp] theorem State.setScript_height (s : State) (ops : List HostOp) : (s.setScript ops).height = s.height := rfl
@[simp] theorem State.setScript_mlen (s : State) (ops : List HostOp) : (s.setScript ops).mlen = s.mlen := rfl
@[simp] theorem State.setScript_blen (s : State) (ops : List HostOp) : (s.setScript ops).blen = s.blen := rfl
@[simp] theorem State.setScript_capr (s : State) (ops : List HostOp) : (s.setScript ops).capr = s.capr := rfl
@[simp] theorem State.setScript_pix (s : State) (ops : List HostOp) : (s.setScript ops).pix = s.pix := rfl
@[simp] theorem State.setScript_bit (s : State) (ops : List HostOp) : (s.setScript ops).bit = s.bit := rfl
@[simp] theorem State.setScript_msg (s : State) (ops : List HostOp) : (s.setScript ops).msg = s.msg := rfl
@[simp] theorem State.setScript_epoch (s : State) (ops : List HostOp) : (s.setScript ops).epoch = s.epoch := rfl
@[simp] theorem State.setScript_script (s : State) (ops : List HostOp) : (s.setScript ops).script = ops := rfl
@[simp] theorem State.setScript_reads (s : State) (ops : List HostOp) : (s.setScript ops).reads = s.reads := rfl

@[simp] theorem State.setScript_readPix (s : State) (ops : List HostOp) (ca : Nat) : (s.setScript ops).readPix ca = s.readPix ca := rfl
@[simp] theorem State.setScript_readBit (s : State) (ops : List HostOp) (ci : Nat) : (s.setScript ops).readBit ci = s.readBit ci := rfl
@[simp] theorem State.setScript_readMsg (s : State) (ops : List HostOp) (cj : Nat) : (s.setScript ops).readMsg cj = s.readMsg cj := rfl
@[simp] theorem State.setScript_np (s : State) (ops : List HostOp) : (s.setScript ops).np = s.np := rfl
@[simp] theorem State.setScript_nc (s : State) (ops : List HostOp) : (s.setScript ops).nc = s.nc := rfl
@[simp] theorem State.setScript_capv (s : State) (ops : List HostOp) : (s.setScript ops).capv = s.capv := rfl

@[simp] theorem State.logRead_cfg (s : State) (v : Word) : (s.logRead v).cfg = s.cfg := rfl
@[simp] theorem State.logRead_cmdl (s : State) (v : Word) : (s.logRead v).cmdl = s.cmdl := rfl
@[simp] theorem State.logRead_err (s : State) (v : Word) : (s.logRead v).err = s.err := rfl
@[simp] theorem State.logRead_trunc (s : State) (v : Word) : (s.logRead v).trunc = s.trunc := rfl
@[simp] theorem State.logRead_found (s : State) (v : Word) : (s.logRead v).found = s.found := rfl
@[simp] theorem State.logRead_ecode (s : State) (v : Word) : (s.logRead v).ecode = s.ecode := rfl
@[simp] theorem State.logRead_errinfo (s : State) (v : Word) : (s.logRead v).errinfo = s.errinfo := rfl
@[simp] theorem State.logRead_width (s : State) (v : Word) : (s.logRead v).width = s.width := rfl
@[simp] theorem State.logRead_height (s : State) (v : Word) : (s.logRead v).height = s.height := rfl
@[simp] theorem State.logRead_mlen (s : State) (v : Word) : (s.logRead v).mlen = s.mlen := rfl
@[simp] theorem State.logRead_blen (s : State) (v : Word) : (s.logRead v).blen = s.blen := rfl
@[simp] theorem State.logRead_capr (s : State) (v : Word) : (s.logRead v).capr = s.capr := rfl
@[simp] theorem State.logRead_pix (s : State) (v : Word) : (s.logRead v).pix = s.pix := rfl
@[simp] theorem State.logRead_bit (s : State) (v : Word) : (s.logRead v).bit = s.bit := rfl
@[simp] theorem State.logRead_msg (s : State) (v : Word) : (s.logRead v).msg = s.msg := rfl
@[simp] theorem State.logRead_epoch (s : State) (v : Word) : (s.logRead v).epoch = s.epoch := rfl
@[simp] theorem State.logRead_script (s : State) (v : Word) : (s.logRead v).script = s.script := rfl
@[simp] theorem State.logRead_reads (s : State) (v : Word) : (s.logRead v).reads = s.reads ++ [v] := rfl

@[simp] theorem State.logRead_readPix (s : State) (v : Word) (ca : Nat) : (s.logRead v).readPix ca = s.readPix ca := rfl
@[simp] theorem State.logRead_readBit (s : State) (v : Word) (ci : Nat) : (s.logRead v).readBit ci = s.readBit ci := rfl
@[simp] theorem State.logRead_readMsg (s : State) (v : Word) (cj : Nat) : (s.logRead v).readMsg cj = s.readMsg cj := rfl
@[simp] theorem State.logRead_np (s : State) (v : Word) : (s.logRead v).np = s.np := rfl
@[simp] theorem State.logRead_nc (s : State) (v : Word) : (s.logRead v).nc = s.nc := rfl
@[simp] theorem State.logRead_capv (s : State) (v : Word) : (s.logRead v).capv = s.capv := rfl

@[simp] theorem State.issue_cfg (s : State) (c : Word) : (s.issue c).cfg = s.cfg := rfl
@[simp] theorem State.issue_cmdl (s : State) (c : Word) : (s.issue c).cmdl = some c := rfl
@[simp] theorem State.issue_err (s : State) (c : Word) : (s.issue c).err = s.err := rfl
@[simp] theorem State.issue_trunc (s : State) (c : Word) : (s.issue c).trunc = s.trunc := rfl
@[simp] theorem State.issue_found (s : State) (c : Word) : (s.issue c).found = s.found := rfl
@[simp] theorem State.issue_ecode (s : State) (c : Word) : (s.issue c).ecode = s.ecode := rfl
@[simp] theorem State.issue_errinfo (s : State) (c : Word) : (s.issue c).errinfo = s.errinfo := rfl
@[simp] theorem State.issue_width (s : State) (c : Word) : (s.issue c).width = s.width := rfl
@[simp] theorem State.issue_height (s : State) (c : Word) : (s.issue c).height = s.height := rfl
@[simp] theorem State.issue_mlen (s : State) (c : Word) : (s.issue c).mlen = s.mlen := rfl
@[simp] theorem State.issue_blen (s : State) (c : Word) : (s.issue c).blen = s.blen := rfl
@[simp] theorem State.issue_capr (s : State) (c : Word) : (s.issue c).capr = s.capr := rfl
@[simp] theorem State.issue_pix (s : State) (c : Word) : (s.issue c).pix = s.pix := rfl
@[simp] theorem State.issue_bit (s : State) (c : Word) : (s.issue c).bit = s.bit := rfl
@[simp] theorem State.issue_msg (s : State) (c : Word) : (s.issue c).msg = s.msg := rfl
@[simp] theorem State.issue_epoch (s : State) (c : Word) : (s.issue c).epoch = s.epoch := rfl
@[simp] theorem State.issue_script (s : State) (c : Word) : (s.issue c).script = s.script := rfl
@[simp] theorem State.issue_reads (s : State) (c : Word) : (s.issue c).reads = s.reads := rfl

@[simp] theorem State.issue_readPix (s : State) (c : Word) (ca : Nat) : (s.issue c).readPix ca = s.readPix ca := rfl
@[simp] theorem State.issue_readBit (s : State) (c : Word) (ci : Nat) : (s.issue c).readBit ci = s.readBit ci := rfl
@[simp] theorem State.issue_readMsg (s : State) (c : Word) (cj : Nat) : (s.issue c).readMsg cj = s.readMsg cj := rfl
@[simp] theorem State.issue_np (s : State) (c : Word) : (s.issue c).np = s.np := rfl
@[simp] theorem State.issue_nc (s : State) (c : Word) : (s.issue c).nc = s.nc := rfl
@[simp] theorem State.issue_capv (s : State) (c : Word) : (s.issue c).capv = s.capv := rfl

@[simp] theorem State.resetEvent_cfg (s : State) : s.resetEvent.cfg = s.cfg := rfl
@[simp] theorem State.resetEvent_cmdl (s : State) : s.resetEvent.cmdl = none := rfl
@[simp] theorem State.resetEvent_err (s : State) : s.resetEvent.err = false := rfl
@[simp] theorem State.resetEvent_trunc (s : State) : s.resetEvent.trunc = false := rfl
@[simp] theorem State.resetEvent_found (s : State) : s.resetEvent.found = false := rfl
@[simp] theorem State.resetEvent_ecode (s : State) : s.resetEvent.ecode = 0 := rfl
@[simp] theorem State.resetEvent_errinfo (s : State) : s.resetEvent.errinfo = 0 := rfl
@[simp] theorem State.resetEvent_width (s : State) : s.resetEvent.width = 0 := rfl
@[simp] theorem State.resetEvent_height (s : State) : s.resetEvent.height = 0 := rfl
@[simp] theorem State.resetEvent_mlen (s : State) : s.resetEvent.mlen = 0 := rfl
@[simp] theorem State.resetEvent_blen (s : State) : s.resetEvent.blen = 0 := rfl
@[simp] theorem State.resetEvent_capr (s : State) : s.resetEvent.capr = 0 := rfl
@[simp] theorem State.resetEvent_pix (s : State) : s.resetEvent.pix = [] := rfl
@[simp] theorem State.resetEvent_bit (s : State) : s.resetEvent.bit = [] := rfl
@[simp] theorem State.resetEvent_msg (s : State) : s.resetEvent.msg = [] := rfl
@[simp] theorem State.resetEvent_epoch (s : State) : s.resetEvent.epoch = s.epoch + 1 := rfl
@[simp] theorem State.resetEvent_script (s : State) : s.resetEvent.script = s.script := rfl
@[simp] theorem State.resetEvent_reads (s : State) : s.resetEvent.reads = s.reads := rfl


end Sys2Proof.Machine
end

