-- ==== Sys2Proof/Laws/Ops.lean ====
section
/-! SUPPORT. What the shared operations do: reading a cell after a write, the end of a command, and the checks. -/

namespace Sys2Proof.Machine

/-- A channel read after a channel write. -/
theorem State.readPix_writePix (s : State) (a b : Nat) (v : Channel) :
    (s.writePix a v).readPix b = if b = a then v else s.readPix b := by
  simp only [State.readPix, State.writePix_pix, State.writePix_epoch, Memory.get?_write]
  split <;> rfl

/-- Bit `k` of a written run of bits reads as written. -/
theorem State.readBit_writeBits {s : State} {i k : Nat} {vs : List Bit} (h : k < vs.length) :
    (s.writeBits i vs).readBit (i + k) = vs[k] := by
  simp [State.readBit, Memory.get?_writeSeq, h]

/-- A bit outside a written run reads as before. -/
theorem State.readBit_writeBits_other {s : State} {i b : Nat} {vs : List Bit} (h : b < i ∨ i + vs.length ≤ b) :
    (s.writeBits i vs).readBit b = s.readBit b := by
  have h' : ¬(i ≤ b ∧ b < i + vs.length) := by omega
  simp [State.readBit, Memory.get?_writeSeq, h']

/-- Character `k` of a written run of characters reads as written. -/
theorem State.readMsg_writeMsgs {s : State} {j k : Nat} {vs : List CodePoint} (h : k < vs.length) :
    (s.writeMsgs j vs).readMsg (j + k) = vs[k] := by
  simp [State.readMsg, Memory.get?_writeSeq, h]

/-- A character outside a written run reads as before. -/
theorem State.readMsg_writeMsgs_other {s : State} {j b : Nat} {vs : List CodePoint}
    (h : b < j ∨ j + vs.length ≤ b) : (s.writeMsgs j vs).readMsg b = s.readMsg b := by
  have h' : ¬(j ≤ b ∧ b < j + vs.length) := by omega
  simp [State.readMsg, Memory.get?_writeSeq, h']

/-- Busy is what the latch says (R34). -/
theorem State.busy_eq (s : State) : s.busy = s.cmdl.isSome := rfl

/-- What the end of a command can be: the first failing check raised, or the effect. -/
theorem conclude_cases {s t done : State} {check : Option (Err × Word)} (h : conclude s check done = .next t) :
    (∃ e info, check = some (e, info) ∧ t = s.raise e info) ∨ (check = none ∧ t = done) := by
  rcases check with _ | ⟨e, info⟩
  · simp only [conclude, Host.Outcome.next.injEq] at h
    exact Or.inr ⟨rfl, h.symm⟩
  · simp only [conclude, Host.Outcome.next.injEq] at h
    exact Or.inl ⟨e, info, rfl, h.symm⟩

@[simp] theorem conclude_none (s done : State) : conclude s none done = .next done := rfl

@[simp] theorem conclude_some (s done : State) (e : Err) (info : Word) :
    conclude s (some (e, info)) done = .next (s.raise e info) := rfl

/-- A list of checks passes when each of them passes. -/
theorem orElse_eq_none {α : Type} (a b : Option α) : (a <|> b) = none ↔ a = none ∧ b = none := by
  cases a <;> simp

/-- What the first failing check of a list can be. -/
theorem orElse_eq_some {α : Type} {a b : Option α} {x : α} (h : (a <|> b) = some x) :
    a = some x ∨ (a = none ∧ b = some x) := by
  cases a with
  | none => exact Or.inr ⟨rfl, by simpa using h⟩
  | some y => exact Or.inl (by simpa using h)

theorem State.geomCheck_none (s : State) : s.geomCheck = none ↔ s.np * s.cfg.nch ≤ s.cfg.pixSize := by
  simp [State.geomCheck]

theorem State.textCheck_none (s : State) : s.textCheck = none ↔ s.mlen.toNat ≤ s.cfg.msgSize := by
  simp [State.textCheck]

theorem State.textRoom_none (s : State) (n : Nat) : s.textRoom n = none ↔ n ≤ s.cfg.msgSize := by
  simp [State.textRoom]

theorem State.bitsCheck_none (s : State) : s.bitsCheck = none ↔ s.blen.toNat ≤ s.cfg.bitSize := by
  simp [State.bitsCheck]

theorem State.bitsRoom_none (s : State) (n : Nat) : s.bitsRoom n = none ↔ n ≤ s.cfg.bitSize := by
  simp [State.bitsRoom]

/-- What a failing check can be: its own error with its own info. -/
theorem State.geomCheck_some {s : State} {x : Err × Word} (h : s.geomCheck = some x) : x = (.geom, 0) := by
  simp only [State.geomCheck] at h
  split at h <;> simp_all

theorem State.textCheck_some {s : State} {x : Err × Word} (h : s.textCheck = some x) : x = (.msgRange, 0) := by
  simp only [State.textCheck] at h
  split at h <;> simp_all

theorem State.textRoom_some {s : State} {n : Nat} {x : Err × Word} (h : s.textRoom n = some x) :
    x = (.msgRange, 1) := by
  simp only [State.textRoom] at h
  split at h <;> simp_all

theorem State.bitsCheck_some {s : State} {x : Err × Word} (h : s.bitsCheck = some x) : x = (.bitRange, 0) := by
  simp only [State.bitsCheck] at h
  split at h <;> simp_all

theorem State.bitsRoom_some {s : State} {n : Nat} {x : Err × Word} (h : s.bitsRoom n = some x) :
    x = (.bitRange, 1) := by
  simp only [State.bitsRoom] at h
  split at h <;> simp_all

/-- The text has `MLEN` characters. -/
@[simp] theorem State.text_length (s : State) : s.text.length = s.mlen.toNat := by simp [State.text]

/-- Character `j` of the text is cell `j` of `MSG`. -/
theorem State.text_getElem (s : State) (j : Nat) (h : j < s.text.length) : s.text[j] = s.readMsg j := by
  simp [State.text]

@[simp] theorem State.bitsUpTo_length (s : State) (n : Nat) : (s.bitsUpTo n).length = n := by simp [State.bitsUpTo]

/-- Bit `i` of the sequence is cell `i` of `BIT`. -/
theorem State.bitsUpTo_getElem (s : State) (n i : Nat) (h : i < (s.bitsUpTo n).length) :
    (s.bitsUpTo n)[i] = s.readBit i := by
  simp [State.bitsUpTo]

@[simp] theorem State.bits_length (s : State) : s.bits.length = s.blen.toNat := by simp [State.bits]

theorem State.bits_getElem (s : State) (i : Nat) (h : i < s.bits.length) : s.bits[i] = s.readBit i := by
  simp [State.bits, State.bitsUpTo_getElem]

@[simp] theorem State.imageBits_length (s : State) : s.imageBits.length = s.nc := by simp [State.imageBits]

/-- Bit `k` of the image is the parity of the channel of scan index `k`. -/
theorem State.imageBits_getElem (s : State) (k : Nat) (h : k < s.imageBits.length) :
    s.imageBits[k] = BitVec.ofNat 1 ((s.readPix (scanAddr s.cfg k)).toNat % 2) := by
  simp [State.imageBits]

/-- The text has no bad character when none of its characters is 256 or more. -/
theorem State.charCheck_none (s : State) :
    s.charCheck = none ↔ ∀ j, j < s.mlen.toNat → (s.readMsg j).toNat < 256 := by
  have h : s.charCheck = none ↔ firstBadChar s.text = none := by
    simp only [State.charCheck]
    split <;> simp_all
  rw [h, firstBadChar, List.findIdx?_eq_none_iff]
  simp [State.text]

/-- The bad character reported is the first one. -/
theorem State.charCheck_some {s : State} {x : Err × Word} (h : s.charCheck = some x) :
    ∃ j, j < s.mlen.toNat ∧ 256 ≤ (s.readMsg j).toNat ∧ (∀ i, i < j → (s.readMsg i).toNat < 256) ∧
      x = (.char, BitVec.ofNat 32 j) := by
  simp only [State.charCheck] at h
  split at h
  · rename_i j hj
    obtain ⟨hlt, hbad, hmin⟩ := List.findIdx?_eq_some_iff_getElem.mp hj
    refine ⟨j, by simpa using hlt, ?_, ?_, by simpa using h.symm⟩
    · simpa [State.text_getElem] using hbad
    · intro i hi
      have := hmin i hi
      simpa [State.text_getElem] using this
  · simp at h

/-- The bad character reported is the one that is first. -/
theorem State.charCheck_eq_some {s : State} {j : Nat} (hlt : j < s.mlen.toNat) (hbad : 256 ≤ (s.readMsg j).toNat)
    (hmin : ∀ i, i < j → (s.readMsg i).toNat < 256) : s.charCheck = some (.char, BitVec.ofNat 32 j) := by
  have h : firstBadChar s.text = some j := by
    refine List.findIdx?_eq_some_iff_getElem.mpr ⟨by simpa using hlt, ?_, ?_⟩
    · simpa [State.text_getElem] using hbad
    · intro i hi
      have := hmin i hi
      simpa [State.text_getElem] using this
  simp [State.charCheck, h]

end Sys2Proof.Machine
end

