-- ==== Sys2Proof/Laws/Codec.lean ====
section
/-! SUPPORT. Lengths and values of the bit conversion, and the checks of PACK and UNPACK. -/

namespace Sys2Proof.Machine

@[simp] theorem bits8_length (c : CodePoint) : (bits8 c).length = 8 := by simp [bits8]

@[simp] theorem textToBits_nil : textToBits [] = [] := rfl

@[simp] theorem textToBits_cons (c : CodePoint) (t : List CodePoint) : textToBits (c :: t) = bits8 c ++ textToBits t :=
  rfl

/-- `TextToBits` gives eight bits a character (R90). -/
@[simp] theorem textToBits_length (t : List CodePoint) : (textToBits t).length = 8 * t.length := by
  induction t with
  | nil => rfl
  | cons c t ih =>
    simp [ih]
    omega

/-- The value of a bit of a character (R90). -/
theorem charBit_toNat (c : CodePoint) (j : Nat) : (charBit c j).toNat = c.toNat / 2 ^ (7 - j) % 2 := by
  simp [charBit]

/-- Eight bits make a character below 256 (R92). -/
theorem val8_lt (b0 b1 b2 b3 b4 b5 b6 b7 : Bit) : (val8 b0 b1 b2 b3 b4 b5 b6 b7).toNat < 256 := by
  have h0 := b0.isLt
  have h1 := b1.isLt
  have h2 := b2.isLt
  have h3 := b3.isLt
  have h4 := b4.isLt
  have h5 := b5.isLt
  have h6 := b6.isLt
  have h7 := b7.isLt
  simp only [val8, BitVec.toNat_ofNat]
  refine Nat.lt_of_le_of_lt (Nat.mod_le _ _) ?_
  omega

/-- Every character `BitsToText` makes is below 256 (R92). -/
theorem bitsToText_lt (b : List Bit) : ∀ c ∈ bitsToText b, c.toNat < 256 := by
  induction b using bitsToText.induct with
  | case1 b0 b1 b2 b3 b4 b5 b6 b7 rest ih =>
    intro c hc
    rcases List.mem_cons.mp hc with rfl | hc
    · exact val8_lt _ _ _ _ _ _ _ _
    · exact ih c hc
  | case2 b h =>
    intro c hc
    rw [bitsToText] at hc
    · simp at hc
    · exact h

/-- `BitsToText` makes one character of every full chunk of eight (R92). -/
@[simp] theorem bitsToText_length (b : List Bit) : (bitsToText b).length = b.length / 8 := by
  induction b using bitsToText.induct with
  | case1 b0 b1 b2 b3 b4 b5 b6 b7 rest ih =>
    simp only [bitsToText, List.length_cons, ih]
    omega
  | case2 b h =>
    have hlt : b.length < 8 := by
      by_contra hge
      match b, hge with
      | b0 :: b1 :: b2 :: b3 :: b4 :: b5 :: b6 :: b7 :: rest, _ => exact h b0 b1 b2 b3 b4 b5 b6 b7 rest rfl
      | [], hg | [_], hg | [_, _], hg | [_, _, _], hg | [_, _, _, _], hg | [_, _, _, _, _], hg
      | [_, _, _, _, _, _], hg | [_, _, _, _, _, _, _], hg => simp at hg
    rw [bitsToText]
    · simp only [List.length_nil]
      omega
    · exact h

/-- The checks of PACK pass under the conditions of R91. -/
theorem State.packCheck_none (s : State) : s.packCheck = none ↔
    s.mlen.toNat ≤ s.cfg.msgSize ∧ 8 * s.mlen.toNat ≤ s.cfg.bitSize ∧
      ∀ j, j < s.mlen.toNat → (s.readMsg j).toNat < 256 := by
  simp only [State.packCheck, orElse_eq_none, State.textCheck_none, State.bitsRoom_none, State.charCheck_none]

/-- The checks of UNPACK pass under the conditions of R93. -/
theorem State.unpackCheck_none (s : State) : s.unpackCheck = none ↔
    s.blen.toNat / 8 ≤ s.cfg.msgSize ∧ s.blen.toNat ≤ s.cfg.bitSize := by
  simp only [State.unpackCheck, orElse_eq_none, State.textRoom_none, State.bitsCheck_none]

end Sys2Proof.Machine
end

