-- ==== Sys2Proof/Laws/Scan.lean ====
section
/-! SUPPORT. The scan of the pixel commands: bounds of the derived quantities, the cells of scan indices, and what the
encoder's scan writes. -/

namespace Sys2Proof.Machine

/-- The number of pixels is below its bound (R32). -/
theorem State.np_le (s : State) : s.np ≤ 65535 * 65535 := by
  have hw := s.width.isLt
  have hh := s.height.isLt
  exact Nat.mul_le_mul (by omega) (by omega)

/-- Two scan indices that use one cell are one index, since a pixel has at least three channels (R5, R54). -/
theorem scanAddr_inj {cfg : Config} (h : 3 ≤ cfg.nch) {j k : Nat} (e : scanAddr cfg j = scanAddr cfg k) : j = k := by
  simp only [scanAddr] at e
  have hj : j % 3 < 3 := Nat.mod_lt _ (by omega)
  have hk : k % 3 < 3 := Nat.mod_lt _ (by omega)
  have hdiv : j / 3 = k / 3 := by
    rcases Nat.lt_trichotomy (j / 3) (k / 3) with hlt | heq | hgt
    · have := Nat.mul_le_mul_right cfg.nch (Nat.succ_le_of_lt hlt)
      rw [Nat.succ_mul] at this
      omega
    · exact heq
    · have := Nat.mul_le_mul_right cfg.nch (Nat.succ_le_of_lt hgt)
      rw [Nat.succ_mul] at this
      omega
  rw [hdiv] at e
  omega

/-- The cell of a scan index below `NC` lies inside the image (R51, R54). -/
theorem scanAddr_lt {cfg : Config} (h : 3 ≤ cfg.nch) {k n : Nat} (hk : k < 3 * n) :
    scanAddr cfg k < n * cfg.nch := by
  have h1 : k / 3 + 1 ≤ n := by omega
  have h2 := Nat.mul_le_mul_right cfg.nch h1
  rw [Nat.add_mul, Nat.one_mul] at h2
  have h3 : k % 3 < 3 := Nat.mod_lt _ (by omega)
  simp only [scanAddr]
  omega

/-- The scan of the encoder changes nothing but `PIX`. -/
theorem State.encodeFrom_eq (s : State) (k : Nat) (bs : List Bit) :
    s.encodeFrom k bs = { s with pix := (s.encodeFrom k bs).pix } := by
  induction bs generalizing s k with
  | nil => rfl
  | cons b bs ih =>
    simp only [State.encodeFrom]
    rw [ih]
    rfl

/-- The encoder's scan from `k` on leaves the cell of every other scan index, and every cell of no scan index, alone. -/
theorem State.readPix_encodeFrom_other {s : State} {k a : Nat} {bs : List Bit}
    (h : ∀ i, k ≤ i → i < k + bs.length → a ≠ scanAddr s.cfg i) : (s.encodeFrom k bs).readPix a = s.readPix a := by
  induction bs generalizing s k with
  | nil => rfl
  | cons b bs ih =>
    simp only [State.encodeFrom]
    simp only [List.length_cons] at h
    rw [ih, State.readPix_writePix, if_neg (h k (by omega) (by omega))]
    intro i h1 h2
    exact h i (by omega) (by omega)

/-- The encoder's scan from `k` on gives the channel of scan index `k + i` the parity of bit `i`. -/
theorem State.readPix_encodeFrom {s : State} (hn : 3 ≤ s.cfg.nch) {k i : Nat} {bs : List Bit} (h : i < bs.length) :
    (s.encodeFrom k bs).readPix (scanAddr s.cfg (k + i)) = setParity (s.readPix (scanAddr s.cfg (k + i))) bs[i] := by
  induction bs generalizing s k i with
  | nil => simp at h
  | cons b bs ih =>
    simp only [State.encodeFrom]
    cases i with
    | zero =>
      rw [State.readPix_encodeFrom_other]
      · simp [State.readPix_writePix]
      · intro i h1 _ he
        have := scanAddr_inj hn he
        omega
    | succ i =>
      have hi : i < bs.length := by simpa using h
      have e : k + (i + 1) = k + 1 + i := by omega
      have := @ih (s.writePix (scanAddr s.cfg k) (setParity (s.readPix (scanAddr s.cfg k)) b)) hn (k + 1) i hi
      rw [State.writePix_cfg] at this
      rw [e, this, State.readPix_writePix, if_neg]
      · rfl
      · intro he
        have := scanAddr_inj hn he
        omega

/-- The encoder keeps the canonical form of `PIX` when the scanned cells lie inside it. -/
theorem State.encodeFrom_wf {s : State} {size k : Nat} {bs : List Bit} (h : s.pix.wf size (2 ^ 8))
    (hi : ∀ i, k ≤ i → i < k + bs.length → scanAddr s.cfg i < size) : (s.encodeFrom k bs).pix.wf size (2 ^ 8) := by
  induction bs generalizing s k with
  | nil => exact h
  | cons b bs ih =>
    simp only [List.length_cons] at hi
    refine ih (Memory.wf_write h (hi k (by omega) (by omega)) (BitVec.isLt _)) ?_
    intro i h1 h2
    exact hi i (by omega) (by omega)

end Sys2Proof.Machine
end

