-- ==== Sys2Proof/Laws/Framer.lean ====
section
/-! SUPPORT. The framer, and the checks of the pixel, framer and composite commands. -/

namespace Sys2Proof.Machine

@[simp] theorem terminator_length : terminator.length = 4 := rfl

/-- A command keeps at most the message (R122). -/
theorem keepLen_le (n cap : Nat) : keepLen n cap ≤ n := by
  simp only [keepLen]
  split <;> omega

/-- Looking for the terminator in a text that goes on. -/
theorem findStop_cons (c : CodePoint) (t : List CodePoint) :
    findStop (c :: t) = if startsWithStop (c :: t) then some 0 else (findStop t).map (· + 1) := rfl

/-- The terminator is found inside the text (R123). -/
theorem findStop_add_four_le {t : List CodePoint} {i : Nat} (h : findStop t = some i) : i + 4 ≤ t.length := by
  induction t generalizing i with
  | nil => simp [findStop] at h
  | cons c t ih =>
    rw [findStop_cons] at h
    split at h
    · rename_i hs
      obtain rfl : 0 = i := by simpa using h
      match t, hs with
      | _ :: _ :: _ :: _, _ => simp
    · obtain ⟨j, hj, rfl⟩ := Option.map_eq_some_iff.mp h
      have := ih hj
      simp only [List.length_cons]
      omega

/-- The checks of ENCB pass under the conditions of R106. -/
theorem State.encbCheck_none (s : State) : s.encbCheck = none ↔
    s.np * s.cfg.nch ≤ s.cfg.pixSize ∧ s.blen.toNat ≤ s.cfg.bitSize := by
  simp only [State.encbCheck, orElse_eq_none, State.geomCheck_none, State.bitsCheck_none]

/-- The checks of DECB pass under the conditions of R116. -/
theorem State.decbCheck_none (s : State) : s.decbCheck = none ↔
    s.np * s.cfg.nch ≤ s.cfg.pixSize ∧ s.nc ≤ s.cfg.bitSize := by
  simp only [State.decbCheck, orElse_eq_none, State.geomCheck_none, State.bitsRoom_none]

/-- The checks of FRAME pass under the conditions of R121. -/
theorem State.frameCheck_none (s : State) : s.frameCheck = none ↔
    s.mlen.toNat ≤ s.cfg.msgSize ∧ s.keep + 4 ≤ s.cfg.msgSize := by
  simp only [State.frameCheck, orElse_eq_none, State.textCheck_none, State.textRoom_none]

/-- The checks of HIDE pass under the conditions of R130. -/
theorem State.hideCheck_none (s : State) : s.hideCheck = none ↔
    s.np * s.cfg.nch ≤ s.cfg.pixSize ∧ s.mlen.toNat ≤ s.cfg.msgSize ∧ s.keep + 4 ≤ s.cfg.msgSize ∧
      8 * (s.keep + 4) ≤ s.cfg.bitSize ∧ ∀ j, j < s.mlen.toNat → (s.readMsg j).toNat < 256 := by
  simp only [State.hideCheck, orElse_eq_none, State.geomCheck_none, State.textCheck_none, State.textRoom_none,
    State.bitsRoom_none, State.charCheck_none]

/-- The checks of REVEAL pass under the conditions of R132. -/
theorem State.revealCheck_none (s : State) : s.revealCheck = none ↔
    s.np * s.cfg.nch ≤ s.cfg.pixSize ∧ s.capv ≤ s.cfg.msgSize ∧ s.nc ≤ s.cfg.bitSize := by
  simp only [State.revealCheck, orElse_eq_none, State.geomCheck_none, State.textRoom_none, State.bitsRoom_none]

/-- UNFRAME ends in one of two ways (R124): the terminator found at `r`, or not found. -/
theorem State.unframeText_cases (s : State) :
    (∃ r, findStop s.text = some r ∧ s.unframeText = (s.setMlen (BitVec.ofNat 32 r)).succeed false true) ∨
      (findStop s.text = none ∧ s.unframeText = s.succeed false false) := by
  simp only [State.unframeText]
  split
  · rename_i r h
    exact Or.inl ⟨r, h, rfl⟩
  · rename_i h
    exact Or.inr ⟨h, rfl⟩

/-- The encoder's scan changes nothing but `PIX`. -/
theorem State.encodeBits_eq (s : State) : s.encodeBits = { s with pix := s.encodeBits.pix } :=
  State.encodeFrom_eq s 0 _

end Sys2Proof.Machine
end

