-- ==== Sys2Proof/Laws/Effects.lean ====
section
/-! SUPPORT. What the writes of each command leave alone: one lemma per field, per cell read and per derived quantity. -/

namespace Sys2Proof.Machine

/-! `State.packText` -/

@[simp] theorem State.packText_cfg (s : State) : s.packText.cfg = s.cfg := rfl
@[simp] theorem State.packText_cmdl (s : State) : s.packText.cmdl = s.cmdl := rfl
@[simp] theorem State.packText_err (s : State) : s.packText.err = s.err := rfl
@[simp] theorem State.packText_trunc (s : State) : s.packText.trunc = s.trunc := rfl
@[simp] theorem State.packText_found (s : State) : s.packText.found = s.found := rfl
@[simp] theorem State.packText_ecode (s : State) : s.packText.ecode = s.ecode := rfl
@[simp] theorem State.packText_errinfo (s : State) : s.packText.errinfo = s.errinfo := rfl
@[simp] theorem State.packText_width (s : State) : s.packText.width = s.width := rfl
@[simp] theorem State.packText_height (s : State) : s.packText.height = s.height := rfl
@[simp] theorem State.packText_mlen (s : State) : s.packText.mlen = s.mlen := rfl
@[simp] theorem State.packText_capr (s : State) : s.packText.capr = s.capr := rfl
@[simp] theorem State.packText_pix (s : State) : s.packText.pix = s.pix := rfl
@[simp] theorem State.packText_msg (s : State) : s.packText.msg = s.msg := rfl
@[simp] theorem State.packText_epoch (s : State) : s.packText.epoch = s.epoch := rfl
@[simp] theorem State.packText_script (s : State) : s.packText.script = s.script := rfl
@[simp] theorem State.packText_reads (s : State) : s.packText.reads = s.reads := rfl
@[simp] theorem State.packText_readPix (s : State) (a : Nat) : s.packText.readPix a = s.readPix a := rfl
@[simp] theorem State.packText_readMsg (s : State) (a : Nat) : s.packText.readMsg a = s.readMsg a := rfl
@[simp] theorem State.packText_np (s : State) : s.packText.np = s.np := rfl
@[simp] theorem State.packText_nc (s : State) : s.packText.nc = s.nc := rfl
@[simp] theorem State.packText_capv (s : State) : s.packText.capv = s.capv := rfl

/-! `State.unpackBits` -/

@[simp] theorem State.unpackBits_cfg (s : State) : s.unpackBits.cfg = s.cfg := rfl
@[simp] theorem State.unpackBits_cmdl (s : State) : s.unpackBits.cmdl = s.cmdl := rfl
@[simp] theorem State.unpackBits_err (s : State) : s.unpackBits.err = s.err := rfl
@[simp] theorem State.unpackBits_trunc (s : State) : s.unpackBits.trunc = s.trunc := rfl
@[simp] theorem State.unpackBits_found (s : State) : s.unpackBits.found = s.found := rfl
@[simp] theorem State.unpackBits_ecode (s : State) : s.unpackBits.ecode = s.ecode := rfl
@[simp] theorem State.unpackBits_errinfo (s : State) : s.unpackBits.errinfo = s.errinfo := rfl
@[simp] theorem State.unpackBits_width (s : State) : s.unpackBits.width = s.width := rfl
@[simp] theorem State.unpackBits_height (s : State) : s.unpackBits.height = s.height := rfl
@[simp] theorem State.unpackBits_blen (s : State) : s.unpackBits.blen = s.blen := rfl
@[simp] theorem State.unpackBits_capr (s : State) : s.unpackBits.capr = s.capr := rfl
@[simp] theorem State.unpackBits_pix (s : State) : s.unpackBits.pix = s.pix := rfl
@[simp] theorem State.unpackBits_bit (s : State) : s.unpackBits.bit = s.bit := rfl
@[simp] theorem State.unpackBits_epoch (s : State) : s.unpackBits.epoch = s.epoch := rfl
@[simp] theorem State.unpackBits_script (s : State) : s.unpackBits.script = s.script := rfl
@[simp] theorem State.unpackBits_reads (s : State) : s.unpackBits.reads = s.reads := rfl
@[simp] theorem State.unpackBits_readPix (s : State) (a : Nat) : s.unpackBits.readPix a = s.readPix a := rfl
@[simp] theorem State.unpackBits_readBit (s : State) (a : Nat) : s.unpackBits.readBit a = s.readBit a := rfl
@[simp] theorem State.unpackBits_np (s : State) : s.unpackBits.np = s.np := rfl
@[simp] theorem State.unpackBits_nc (s : State) : s.unpackBits.nc = s.nc := rfl
@[simp] theorem State.unpackBits_capv (s : State) : s.unpackBits.capv = s.capv := rfl

/-! `State.decodeImage` -/

@[simp] theorem State.decodeImage_cfg (s : State) : s.decodeImage.cfg = s.cfg := rfl
@[simp] theorem State.decodeImage_cmdl (s : State) : s.decodeImage.cmdl = s.cmdl := rfl
@[simp] theorem State.decodeImage_err (s : State) : s.decodeImage.err = s.err := rfl
@[simp] theorem State.decodeImage_trunc (s : State) : s.decodeImage.trunc = s.trunc := rfl
@[simp] theorem State.decodeImage_found (s : State) : s.decodeImage.found = s.found := rfl
@[simp] theorem State.decodeImage_ecode (s : State) : s.decodeImage.ecode = s.ecode := rfl
@[simp] theorem State.decodeImage_errinfo (s : State) : s.decodeImage.errinfo = s.errinfo := rfl
@[simp] theorem State.decodeImage_width (s : State) : s.decodeImage.width = s.width := rfl
@[simp] theorem State.decodeImage_height (s : State) : s.decodeImage.height = s.height := rfl
@[simp] theorem State.decodeImage_mlen (s : State) : s.decodeImage.mlen = s.mlen := rfl
@[simp] theorem State.decodeImage_capr (s : State) : s.decodeImage.capr = s.capr := rfl
@[simp] theorem State.decodeImage_pix (s : State) : s.decodeImage.pix = s.pix := rfl
@[simp] theorem State.decodeImage_msg (s : State) : s.decodeImage.msg = s.msg := rfl
@[simp] theorem State.decodeImage_epoch (s : State) : s.decodeImage.epoch = s.epoch := rfl
@[simp] theorem State.decodeImage_script (s : State) : s.decodeImage.script = s.script := rfl
@[simp] theorem State.decodeImage_reads (s : State) : s.decodeImage.reads = s.reads := rfl
@[simp] theorem State.decodeImage_readPix (s : State) (a : Nat) : s.decodeImage.readPix a = s.readPix a := rfl
@[simp] theorem State.decodeImage_readMsg (s : State) (a : Nat) : s.decodeImage.readMsg a = s.readMsg a := rfl
@[simp] theorem State.decodeImage_np (s : State) : s.decodeImage.np = s.np := rfl
@[simp] theorem State.decodeImage_nc (s : State) : s.decodeImage.nc = s.nc := rfl
@[simp] theorem State.decodeImage_capv (s : State) : s.decodeImage.capv = s.capv := rfl

/-! `State.frameText` -/

@[simp] theorem State.frameText_cfg (s : State) : s.frameText.cfg = s.cfg := rfl
@[simp] theorem State.frameText_cmdl (s : State) : s.frameText.cmdl = s.cmdl := rfl
@[simp] theorem State.frameText_err (s : State) : s.frameText.err = s.err := rfl
@[simp] theorem State.frameText_trunc (s : State) : s.frameText.trunc = s.trunc := rfl
@[simp] theorem State.frameText_found (s : State) : s.frameText.found = s.found := rfl
@[simp] theorem State.frameText_ecode (s : State) : s.frameText.ecode = s.ecode := rfl
@[simp] theorem State.frameText_errinfo (s : State) : s.frameText.errinfo = s.errinfo := rfl
@[simp] theorem State.frameText_width (s : State) : s.frameText.width = s.width := rfl
@[simp] theorem State.frameText_height (s : State) : s.frameText.height = s.height := rfl
@[simp] theorem State.frameText_blen (s : State) : s.frameText.blen = s.blen := rfl
@[simp] theorem State.frameText_capr (s : State) : s.frameText.capr = s.capr := rfl
@[simp] theorem State.frameText_pix (s : State) : s.frameText.pix = s.pix := rfl
@[simp] theorem State.frameText_bit (s : State) : s.frameText.bit = s.bit := rfl
@[simp] theorem State.frameText_epoch (s : State) : s.frameText.epoch = s.epoch := rfl
@[simp] theorem State.frameText_script (s : State) : s.frameText.script = s.script := rfl
@[simp] theorem State.frameText_reads (s : State) : s.frameText.reads = s.reads := rfl
@[simp] theorem State.frameText_readPix (s : State) (a : Nat) : s.frameText.readPix a = s.readPix a := rfl
@[simp] theorem State.frameText_readBit (s : State) (a : Nat) : s.frameText.readBit a = s.readBit a := rfl
@[simp] theorem State.frameText_np (s : State) : s.frameText.np = s.np := rfl
@[simp] theorem State.frameText_nc (s : State) : s.frameText.nc = s.nc := rfl
@[simp] theorem State.frameText_capv (s : State) : s.frameText.capv = s.capv := rfl

/-! `State.encodeBits` -/

@[simp] theorem State.encodeBits_cfg (s : State) : s.encodeBits.cfg = s.cfg := by rw [State.encodeBits_eq]
@[simp] theorem State.encodeBits_cmdl (s : State) : s.encodeBits.cmdl = s.cmdl := by rw [State.encodeBits_eq]
@[simp] theorem State.encodeBits_err (s : State) : s.encodeBits.err = s.err := by rw [State.encodeBits_eq]
@[simp] theorem State.encodeBits_trunc (s : State) : s.encodeBits.trunc = s.trunc := by rw [State.encodeBits_eq]
@[simp] theorem State.encodeBits_found (s : State) : s.encodeBits.found = s.found := by rw [State.encodeBits_eq]
@[simp] theorem State.encodeBits_ecode (s : State) : s.encodeBits.ecode = s.ecode := by rw [State.encodeBits_eq]
@[simp] theorem State.encodeBits_errinfo (s : State) : s.encodeBits.errinfo = s.errinfo := by rw [State.encodeBits_eq]
@[simp] theorem State.encodeBits_width (s : State) : s.encodeBits.width = s.width := by rw [State.encodeBits_eq]
@[simp] theorem State.encodeBits_height (s : State) : s.encodeBits.height = s.height := by rw [State.encodeBits_eq]
@[simp] theorem State.encodeBits_mlen (s : State) : s.encodeBits.mlen = s.mlen := by rw [State.encodeBits_eq]
@[simp] theorem State.encodeBits_blen (s : State) : s.encodeBits.blen = s.blen := by rw [State.encodeBits_eq]
@[simp] theorem State.encodeBits_capr (s : State) : s.encodeBits.capr = s.capr := by rw [State.encodeBits_eq]
@[simp] theorem State.encodeBits_bit (s : State) : s.encodeBits.bit = s.bit := by rw [State.encodeBits_eq]
@[simp] theorem State.encodeBits_msg (s : State) : s.encodeBits.msg = s.msg := by rw [State.encodeBits_eq]
@[simp] theorem State.encodeBits_epoch (s : State) : s.encodeBits.epoch = s.epoch := by rw [State.encodeBits_eq]
@[simp] theorem State.encodeBits_script (s : State) : s.encodeBits.script = s.script := by rw [State.encodeBits_eq]
@[simp] theorem State.encodeBits_reads (s : State) : s.encodeBits.reads = s.reads := by rw [State.encodeBits_eq]
@[simp] theorem State.encodeBits_readBit (s : State) (a : Nat) : s.encodeBits.readBit a = s.readBit a := by rw [State.encodeBits_eq]; rfl
@[simp] theorem State.encodeBits_readMsg (s : State) (a : Nat) : s.encodeBits.readMsg a = s.readMsg a := by rw [State.encodeBits_eq]; rfl
@[simp] theorem State.encodeBits_np (s : State) : s.encodeBits.np = s.np := by rw [State.encodeBits_eq]; rfl
@[simp] theorem State.encodeBits_nc (s : State) : s.encodeBits.nc = s.nc := by rw [State.encodeBits_eq]; rfl
@[simp] theorem State.encodeBits_capv (s : State) : s.encodeBits.capv = s.capv := by rw [State.encodeBits_eq]; rfl

/-! `State.hideText` -/

@[simp] theorem State.hideText_cfg (s : State) : s.hideText.cfg = s.cfg := by simp [State.hideText]
@[simp] theorem State.hideText_cmdl (s : State) : s.hideText.cmdl = s.cmdl := by simp [State.hideText]
@[simp] theorem State.hideText_err (s : State) : s.hideText.err = s.err := by simp [State.hideText]
@[simp] theorem State.hideText_trunc (s : State) : s.hideText.trunc = s.trunc := by simp [State.hideText]
@[simp] theorem State.hideText_found (s : State) : s.hideText.found = s.found := by simp [State.hideText]
@[simp] theorem State.hideText_ecode (s : State) : s.hideText.ecode = s.ecode := by simp [State.hideText]
@[simp] theorem State.hideText_errinfo (s : State) : s.hideText.errinfo = s.errinfo := by simp [State.hideText]
@[simp] theorem State.hideText_width (s : State) : s.hideText.width = s.width := by simp [State.hideText]
@[simp] theorem State.hideText_height (s : State) : s.hideText.height = s.height := by simp [State.hideText]
@[simp] theorem State.hideText_capr (s : State) : s.hideText.capr = s.capr := by simp [State.hideText]
@[simp] theorem State.hideText_epoch (s : State) : s.hideText.epoch = s.epoch := by simp [State.hideText]
@[simp] theorem State.hideText_script (s : State) : s.hideText.script = s.script := by simp [State.hideText]
@[simp] theorem State.hideText_reads (s : State) : s.hideText.reads = s.reads := by simp [State.hideText]

/-- HIDE leaves the text that FRAME writes (R130). -/
theorem State.hideText_readMsg (s : State) (j : Nat) : s.hideText.readMsg j = s.frameText.readMsg j := by
  simp [State.hideText]

/-- HIDE leaves the bits that PACK writes of the framed text (R130). -/
theorem State.hideText_readBit (s : State) (i : Nat) : s.hideText.readBit i = s.frameText.packText.readBit i := by
  simp [State.hideText]

theorem State.hideText_mlen (s : State) : s.hideText.mlen = s.frameText.mlen := by simp [State.hideText]

theorem State.hideText_blen (s : State) : s.hideText.blen = s.frameText.packText.blen := by simp [State.hideText]

/-! `State.unframeText` -/

@[simp] theorem State.unframeText_cfg (s : State) : s.unframeText.cfg = s.cfg := by
  rcases s.unframeText_cases with ⟨r, _, h⟩ | ⟨_, h⟩ <;> simp [h]
@[simp] theorem State.unframeText_cmdl (s : State) : s.unframeText.cmdl = none := by
  rcases s.unframeText_cases with ⟨r, _, h⟩ | ⟨_, h⟩ <;> simp [h]
@[simp] theorem State.unframeText_err (s : State) : s.unframeText.err = false := by
  rcases s.unframeText_cases with ⟨r, _, h⟩ | ⟨_, h⟩ <;> simp [h]
@[simp] theorem State.unframeText_trunc (s : State) : s.unframeText.trunc = false := by
  rcases s.unframeText_cases with ⟨r, _, h⟩ | ⟨_, h⟩ <;> simp [h]
@[simp] theorem State.unframeText_ecode (s : State) : s.unframeText.ecode = 0 := by
  rcases s.unframeText_cases with ⟨r, _, h⟩ | ⟨_, h⟩ <;> simp [h]
@[simp] theorem State.unframeText_errinfo (s : State) : s.unframeText.errinfo = 0 := by
  rcases s.unframeText_cases with ⟨r, _, h⟩ | ⟨_, h⟩ <;> simp [h]
@[simp] theorem State.unframeText_width (s : State) : s.unframeText.width = s.width := by
  rcases s.unframeText_cases with ⟨r, _, h⟩ | ⟨_, h⟩ <;> simp [h]
@[simp] theorem State.unframeText_height (s : State) : s.unframeText.height = s.height := by
  rcases s.unframeText_cases with ⟨r, _, h⟩ | ⟨_, h⟩ <;> simp [h]
@[simp] theorem State.unframeText_blen (s : State) : s.unframeText.blen = s.blen := by
  rcases s.unframeText_cases with ⟨r, _, h⟩ | ⟨_, h⟩ <;> simp [h]
@[simp] theorem State.unframeText_capr (s : State) : s.unframeText.capr = s.capr := by
  rcases s.unframeText_cases with ⟨r, _, h⟩ | ⟨_, h⟩ <;> simp [h]
@[simp] theorem State.unframeText_pix (s : State) : s.unframeText.pix = s.pix := by
  rcases s.unframeText_cases with ⟨r, _, h⟩ | ⟨_, h⟩ <;> simp [h]
@[simp] theorem State.unframeText_bit (s : State) : s.unframeText.bit = s.bit := by
  rcases s.unframeText_cases with ⟨r, _, h⟩ | ⟨_, h⟩ <;> simp [h]
@[simp] theorem State.unframeText_msg (s : State) : s.unframeText.msg = s.msg := by
  rcases s.unframeText_cases with ⟨r, _, h⟩ | ⟨_, h⟩ <;> simp [h]
@[simp] theorem State.unframeText_epoch (s : State) : s.unframeText.epoch = s.epoch := by
  rcases s.unframeText_cases with ⟨r, _, h⟩ | ⟨_, h⟩ <;> simp [h]
@[simp] theorem State.unframeText_script (s : State) : s.unframeText.script = s.script := by
  rcases s.unframeText_cases with ⟨r, _, h⟩ | ⟨_, h⟩ <;> simp [h]
@[simp] theorem State.unframeText_reads (s : State) : s.unframeText.reads = s.reads := by
  rcases s.unframeText_cases with ⟨r, _, h⟩ | ⟨_, h⟩ <;> simp [h]
@[simp] theorem State.unframeText_readPix (s : State) (a : Nat) : s.unframeText.readPix a = s.readPix a := by
  rcases s.unframeText_cases with ⟨r, _, h⟩ | ⟨_, h⟩ <;> simp [h]
@[simp] theorem State.unframeText_readBit (s : State) (a : Nat) : s.unframeText.readBit a = s.readBit a := by
  rcases s.unframeText_cases with ⟨r, _, h⟩ | ⟨_, h⟩ <;> simp [h]
@[simp] theorem State.unframeText_readMsg (s : State) (a : Nat) : s.unframeText.readMsg a = s.readMsg a := by
  rcases s.unframeText_cases with ⟨r, _, h⟩ | ⟨_, h⟩ <;> simp [h]

end Sys2Proof.Machine
end

