-- ==== Sys2Proof/Laws/Exec.lean ====
section
/-! SUPPORT. What a command and a step can do, said once: a command answers a next state, either an error raised on the
state as it was or the effect of its rule; a step is the engine's or the host's. -/

namespace Sys2Proof.Machine

/-- The checks a command makes before its first write, in order (R75, R145). -/
def checksOf (i : Instr) (s : State) : Option (Err × Word) :=
  match i with
  | .nop => none
  | .cap => none
  | .pack => s.packCheck
  | .unpack => s.unpackCheck
  | .encb => s.encbCheck
  | .decb => s.decbCheck
  | .frame => s.frameCheck
  | .unframe => s.textCheck
  | .hide => s.hideCheck
  | .reveal => s.revealCheck

/-- The state a command leaves when its checks pass (R75). -/
def effectOf (i : Instr) (s : State) : State :=
  match i with
  | .nop => s.succeed false false
  | .cap => (s.setCapr (BitVec.ofNat 32 s.capv)).succeed false false
  | .pack => s.packText.succeed false false
  | .unpack => s.unpackBits.succeed false false
  | .encb => s.encodeBits.succeed s.bitsDropped false
  | .decb => s.decodeImage.succeed false false
  | .frame => s.frameText.succeed s.charsDropped false
  | .unframe => s.unframeText
  | .hide => s.hideText.succeed s.hideDropped false
  | .reveal => s.decodeImage.unpackBits.unframeText

/-- Every command is its checks and then its effect. -/
theorem exec_eq (i : Instr) (s : State) : exec i s = conclude s (checksOf i s) (effectOf i s) := by
  cases i <;> rfl

/-- What a command can do: raise an error on the state as it was, or have its effect. -/
theorem exec_cases {i : Instr} {s t : State} (h : exec i s = .next t) :
    (∃ e info, checksOf i s = some (e, info) ∧ t = s.raise e info) ∨ (checksOf i s = none ∧ t = effectOf i s) := by
  rw [exec_eq] at h
  exact conclude_cases h

/-- A command always answers a next state. -/
theorem exec_next (i : Instr) (s : State) : ∃ t, exec i s = .next t := by
  rw [exec_eq]
  rcases checksOf i s with _ | ⟨e, info⟩
  · exact ⟨_, rfl⟩
  · exact ⟨_, rfl⟩

/-- A command whose checks pass has its effect. -/
theorem exec_of_checks {i : Instr} {s : State} (h : checksOf i s = none) : exec i s = .next (effectOf i s) := by
  rw [exec_eq, h]
  rfl

/-- The engine's step is the completion of the latched word. -/
theorem step_engine {s : State} {c : Word} (h : s.engineTurn = true) (hc : s.cmdl = some c) :
    step s = completeWord c s := by
  simp [step, h, complete, hc]

/-- Every other step is the host's. -/
theorem step_host {s : State} (h : s.engineTurn = false) : step s = hostTurn s := by simp [step, h]

/-- A busy machine has a command latched. -/
theorem engineTurn_latched {s : State} (h : s.engineTurn = true) : ∃ c, s.cmdl = some c := by
  simp only [State.engineTurn, State.busy, Bool.and_eq_true] at h
  exact Option.isSome_iff_exists.mp h.1

/-- The memory after a reset is canonical. -/
theorem State.resetOf_canonical (cfg : Config) (epoch : Nat) :
    (State.resetOf cfg epoch).pix.wf cfg.pixSize (2 ^ 8) ∧ (State.resetOf cfg epoch).bit.wf cfg.bitSize (2 ^ 1) ∧
      (State.resetOf cfg epoch).msg.wf cfg.msgSize (2 ^ cfg.cpw) :=
  ⟨Memory.wf_nil _ _, Memory.wf_nil _ _, Memory.wf_nil _ _⟩

end Sys2Proof.Machine
end

