-- ==== Sys2Proof/Laws/PerInstr.lean ====
section
/-! SUPPORT. A statement about every command as syntax, one lemma per constructor: the form of its word. -/

namespace Sys2Proof.Laws

/-- A command is well-formed, and its word has the one format `C` (R70): `RSV = 0` and `OP` a defined operation that is
its own number. -/
def CommandFormat.Statement (i : Instr) : Prop :=
  i.wellFormed ∧ legalWord (encode i) ∧ rsvField (encode i) = 0 ∧ instrOfOp (opField (encode i)) = some i

theorem CommandFormat.nop : CommandFormat.Statement .nop := by unfold CommandFormat.Statement; decide
theorem CommandFormat.cap : CommandFormat.Statement .cap := by unfold CommandFormat.Statement; decide
theorem CommandFormat.pack : CommandFormat.Statement .pack := by unfold CommandFormat.Statement; decide
theorem CommandFormat.unpack : CommandFormat.Statement .unpack := by unfold CommandFormat.Statement; decide
theorem CommandFormat.encb : CommandFormat.Statement .encb := by unfold CommandFormat.Statement; decide
theorem CommandFormat.decb : CommandFormat.Statement .decb := by unfold CommandFormat.Statement; decide
theorem CommandFormat.frame : CommandFormat.Statement .frame := by unfold CommandFormat.Statement; decide
theorem CommandFormat.unframe : CommandFormat.Statement .unframe := by unfold CommandFormat.Statement; decide
theorem CommandFormat.hide : CommandFormat.Statement .hide := by unfold CommandFormat.Statement; decide
theorem CommandFormat.reveal : CommandFormat.Statement .reveal := by unfold CommandFormat.Statement; decide

end Sys2Proof.Laws
end

