-- ==== Sys2Proof/Tests/Slice0.lean ====
section
/-! SUPPORT. The model's own tests. The expected results are those of spec/95_test_vectors.md (named V-…, P…), of the
opcode table, or worked out by hand from the rule named. The witnesses show states that meet the hypotheses of the
statements of Certificates/Slice0/Obligations.lean. -/

namespace Sys2Proof.Tests

open Sys2Proof Sys2Proof.Machine

/-- A state with these registers and with the memories written from cell 0 upward, right after a reset otherwise. -/
def small (cfg : Config) (w h : Dim) (mlen blen : Word) (pix : List Channel) (bit : List Bit) (msg : List CodePoint) :
    State :=
  { State.resetOf cfg 0 with
    width := w, height := h, mlen := mlen, blen := blen
    pix := Memory.writeSeq [] 0 pix, bit := Memory.writeSeq [] 0 bit, msg := Memory.writeSeq [] 0 msg }

/-- A legal configuration with memories of these sizes. -/
def sized (pixSize msgSize bitSize : Nat) : Config :=
  { nch := 3, cpw := 16, pixSize := pixSize, bitSize := bitSize, msgSize := msgSize }

/-- The test configuration with four channels a pixel (V-E6, P4). -/
def fourChannels : Config := { Config.test with nch := 4 }

/-- The result is a next state that has the property. -/
def nextIs (r : Result) (p : State → Prop) [DecidablePred p] : Bool :=
  match r with
  | .next t => decide (p t)
  | .fault _ => false
  | .refused _ => false

theorem exists_of_nextIs {r : Result} {p : State → Prop} [DecidablePred p] (h : nextIs r p = true) :
    ∃ t, r = .next t ∧ p t := by
  cases r with
  | next t => exact ⟨t, rfl, of_decide_eq_true h⟩
  | fault f => cases f
  | refused r => cases h

/-- The result is refused for this reason. -/
def refusedFor (r : Result) (why : Refusal) : Bool :=
  match r with
  | .next _ => false
  | .fault _ => false
  | .refused q => decide (q = why)

/-- `PIX[0 .. n)`, `BIT[0 .. n)` and `MSG[0 .. n)` as lists. -/
def pixTo (s : State) (n : Nat) : List Channel := (List.range n).map s.readPix

def msgTo (s : State) (n : Nat) : List CodePoint := (List.range n).map s.readMsg

/-! Well-formedness and decoding -/

theorem test_wellFormed : Instr.hide.wellFormed := by decide

/-- `RSV` not zero: the word is refused though its `OP` is that of CAP (V-X5). -/
theorem test_illformed_rsv : ¬legalWord 0x80000001 := by decide

/-- The lowest reserved bit alone (V-X4). -/
theorem test_illformed_rsv_low : ¬legalWord 0x00000010 := by decide

/-- `OP = 10`, the first undefined one (V-X2). -/
theorem test_illformed_op : ¬legalWord 0x0000000A := by decide

theorem test_legal : legalWord 0x00000009 := by decide

theorem test_decode_nop : decode 0b00000000000000000000000000000000 = .instr .nop := by decide
theorem test_decode_cap : decode 0b00000000000000000000000000000001 = .instr .cap := by decide
theorem test_decode_pack : decode 0b00000000000000000000000000000010 = .instr .pack := by decide
theorem test_decode_unpack : decode 0b00000000000000000000000000000011 = .instr .unpack := by decide
theorem test_decode_encb : decode 0b00000000000000000000000000000100 = .instr .encb := by decide
theorem test_decode_decb : decode 0b00000000000000000000000000000101 = .instr .decb := by decide
theorem test_decode_frame : decode 0b00000000000000000000000000000110 = .instr .frame := by decide
theorem test_decode_unframe : decode 0b00000000000000000000000000000111 = .instr .unframe := by decide
theorem test_decode_hide : decode 0b00000000000000000000000000001000 = .instr .hide := by decide
theorem test_decode_reveal : decode 0b00000000000000000000000000001001 = .instr .reveal := by decide

/-- `0x0000000F` is no command (V-X3). -/
theorem test_decode_op15 : ∀ i, decode 0x0000000F ≠ .instr i := by intro i; cases i <;> decide

/-- The table's numbering of bits: the one word, bit 0 least significant. -/
theorem test_tableWord : decodeTableWord 32 9 = some .reveal ∧ decodeTableWord 32 16 = none := by decide

/-! The commands -/

/-- V-X1. -/
theorem test_nop : nextIs (step (({ State.reset with err := true, ecode := 2, errinfo := 7 }).withFetchWord 32 0))
    (fun t => t.statusWord = 0 ∧ t.errinfo = 0) = true := by decide

/-- V-C, the largest image. -/
theorem test_cap_largest : nextIs (step ((small Config.test 65535 65535 0 0 [] [] []).withFetchWord 32 1))
    (fun t => t.capr = 1610563584 ∧ t.statusWord = 0) = true := by decide

/-- V-C, 11 × 1. -/
theorem test_cap : nextIs (step ((small Config.test 11 1 0 0 [] [] []).withFetchWord 32 1)) (fun t => t.capr = 4) = true := by
  decide

/-- V-P1. -/
theorem test_pack : nextIs (step ((small Config.test 0 0 1 0 [] [] [65]).withFetchWord 32 2))
    (fun t => t.bits = [0, 1, 0, 0, 0, 0, 0, 1] ∧ t.blen = 8 ∧ t.statusWord = 0) = true := by decide

/-- V-P8: the first bad character. -/
theorem test_pack_char :
    nextIs (step ((small (sized 0 512 2048) 0 0 10 0 [] [] [0, 0, 0, 256, 0, 0, 0, 400, 0, 0]).withFetchWord 32 2))
      (fun t => t.statusWord = 0x202 ∧ t.errinfo = 3 ∧ t.blen = 0) = true := by decide

/-- V-U1: two trailing bits dropped. -/
theorem test_unpack : nextIs (step ((small Config.test 0 0 0 10 [] [0, 1, 0, 0, 0, 0, 0, 1, 0, 1] []).withFetchWord 32 3))
    (fun t => t.readMsg 0 = 65 ∧ t.mlen = 1 ∧ t.blen = 10 ∧ t.statusWord = 0) = true := by decide

/-- V-U3. -/
theorem test_unpack_two :
    nextIs (step ((small Config.test 0 0 0 16 [] [1, 0, 1, 0, 0, 1, 0, 1, 1, 1, 1, 1, 0, 0, 0, 0] []).withFetchWord 32 3))
      (fun t => t.text = [165, 240]) = true := by decide

/-- V-E6, with four channels a pixel. -/
theorem test_encb :
    nextIs (step ((small fourChannels 2 1 0 5 [0x0A, 0x0B, 0x0C, 0x63, 0x0D, 0x0E, 0x0F, 0x62] [1, 1, 0, 0, 1] []).withFetchWord
        32 4))
      (fun t => pixTo t 8 = [0x0B, 0x0B, 0x0C, 0x63, 0x0C, 0x0F, 0x0F, 0x62] ∧ t.statusWord = 0) = true := by decide

/-- V-E4: the fourth bit has no channel. -/
theorem test_encb_trunc : nextIs (step ((small Config.test 1 1 0 4 [4, 5, 6] [1, 1, 1, 1] []).withFetchWord 32 4))
    (fun t => pixTo t 3 = [5, 5, 7] ∧ t.statusWord = 4) = true := by decide

/-- V-D2, the end state of V-E6. -/
theorem test_decb :
    nextIs (step ((small fourChannels 2 1 0 0 [0x0B, 0x0B, 0x0C, 0x63, 0x0C, 0x0F, 0x0F, 0x62] [] []).withFetchWord 32 5))
      (fun t => t.bits = [1, 1, 0, 0, 1, 1] ∧ t.blen = 6 ∧ t.statusWord = 0) = true := by decide

/-- V-D7. -/
theorem test_decb_bitRange : nextIs (step ((small Config.test 27 27 0 0 [] [] []).withFetchWord 32 5))
    (fun t => t.statusWord = 0x502 ∧ t.errinfo = 1 ∧ t.blen = 0) = true := by decide

/-- V-F6: four characters dropped. -/
theorem test_frame : nextIs (step ((small Config.test 5 3 5 0 [] [] [88, 88, 88, 88, 88]).withFetchWord 32 6))
    (fun t => t.text = [88, 83, 84, 79, 80] ∧ t.statusWord = 4) = true := by decide

/-- V-F7: regime B. -/
theorem test_frame_small : nextIs (step ((small Config.test 3 3 2 0 [] [] [88, 88]).withFetchWord 32 6))
    (fun t => t.text = [88, 88, 83, 84, 79, 80] ∧ t.statusWord = 0) = true := by decide

/-- V-N5: "STOSTOP". -/
theorem test_unframe : nextIs (step ((small Config.test 0 0 7 0 [] [] [83, 84, 79, 83, 84, 79, 80]).withFetchWord 32 7))
    (fun t => t.mlen = 3 ∧ t.statusWord = 8) = true := by decide

/-- V-N7: cells are compared whole. -/
theorem test_unframe_whole : nextIs (step ((small Config.test 0 0 4 0 [] [] [339, 84, 79, 80]).withFetchWord 32 7))
    (fun t => t.mlen = 4 ∧ t.statusWord = 0) = true := by decide

/-- P2. -/
def imageP2 : List Channel := [0x00, 0xFF, 0x10, 0x11, 0x80, 0x81, 0xC8, 0xC9, 0x4D, 0x4E, 0xFE, 0x01]

/-- P2, `hide`. -/
theorem test_hide : nextIs (step ((small Config.test 2 2 1 0 imageP2 [] [65]).withFetchWord 32 8))
    (fun t => pixTo t 12 = [0x00, 0xFF, 0x10, 0x10, 0x80, 0x80, 0xC8, 0xC9, 0x4C, 0x4F, 0xFE, 0x01] ∧
      t.text = [65, 83, 84, 79, 80] ∧ t.blen = 40 ∧ t.statusWord = 4) = true := by decide

/-- V-X9: a message that fits with a result that does not. -/
theorem test_hide_msgRange : nextIs (step ((small (sized 12 4 16) 2 2 1 0 imageP2 [] [300]).withFetchWord 32 8))
    (fun t => t.statusWord = 0x402 ∧ t.errinfo = 1) = true := by decide

/-- P2, `reveal` after `hide`. -/
theorem test_reveal :
    nextIs (step ((small Config.test 2 2 5 40
        [0x00, 0xFF, 0x10, 0x10, 0x80, 0x80, 0xC8, 0xC9, 0x4C, 0x4F, 0xFE, 0x01] [] [65, 83, 84, 79, 80]).withFetchWord 32 9))
      (fun t => t.bits = [0, 1, 0, 0, 0, 0, 0, 1, 0, 1, 0, 1] ∧ t.text = [65] ∧ msgTo t 5 = [65, 83, 84, 79, 80] ∧
        t.statusWord = 0) = true := by decide

/-- V-H3's image: the parities are "STOP", and the message is found empty. -/
theorem test_reveal_found :
    nextIs (step ((small Config.test 4 3 0 0
        ([0x00, 0xFF, 0xFE, 0x01, 0x1E, 0x26, 0x2D, 0x35, 0x3A, 0x43, 0x48, 0x51, 0x56, 0x5F, 0x64, 0x6C, 0x72, 0x7B] ++
          [0x80, 0x88, 0x8F, 0x97, 0x9D, 0xA5, 0xAA, 0xB3, 0xB8, 0xC1, 0xC6, 0xCE, 0xD4, 0xDC, 0xE3, 0xEA, 0xF1, 0xF8])
        [] []).withFetchWord 32 9))
      (fun t => t.mlen = 0 ∧ t.statusWord = 8) = true := by decide

/-- V-X6: a word that is no command. -/
theorem test_illegal : nextIs (step (State.reset.withFetchWord 32 0xFFFFFFFF))
    (fun t => t.statusWord = 0x102 ∧ t.errinfo = 4294967295) = true := by decide

/-! The host's port -/

/-- V-G1. -/
theorem test_width_low16 : nextIs (core.run 2 (State.reset.setScript [.regWrite 3 0x12345, .regRead 3]))
    (fun t => t.reads = [9029]) = true := by decide

/-- V-G4 and V-G6: writes of read-only registers and of number 8 are ignored. -/
theorem test_readOnly :
    nextIs (core.run 5 (State.reset.setScript
        [.regWrite 1 0xFFFFFFFF, .regWrite 2 5, .regWrite 7 9, .regWrite 8 1, .regRead 8]))
      (fun t => t = { State.reset with reads := [0] }) = true := by decide

/-- V-G7: issue keeps the flags and sets `BUSY`. -/
theorem test_issue :
    nextIs (core.run 2 ({ State.reset with err := true, ecode := 2, errinfo := 1, script := [.regWrite 0 0, .regRead 1] }))
      (fun t => t.reads = [0x203] ∧ t.errinfo = 1) = true := by decide

/-- V-G9: `CAPR` goes stale. -/
theorem test_capr_stale :
    nextIs (core.run 7 (State.reset.setScript
        (scriptOps [.wr .width 4, .wr .height 4, .cmd .cap, .wr .width 2, .rd .capr])))
      (fun t => t.reads = [6] ∧ t.script = []) = true := by decide

/-- R166, U1: a write of a register while `BUSY = 1` has no meaning. -/
theorem test_busy_write :
    refusedFor (core.run 2 (State.reset.setScript [.regWrite 0 0, .regWrite 5 1])) .hostAccessWhileBusy = true := by decide

/-- A bit written is read back; the cell beyond the last has no access (R56). -/
theorem test_memory_port :
    nextIs (core.run 2 (State.reset.setScript [.memWrite .bit 2047 1, .memRead .bit 2047])) (fun t => t.reads = [1]) = true ∧
      refusedFor (core.run 1 (State.reset.setScript [.memRead .bit 2048])) .cellOutOfRange = true ∧
      refusedFor (core.run 1 (State.reset.setScript [.memWrite .pix 0 256])) .valueTooWide = true := by decide

/-! The state after reset -/

/-- V-G8. -/
theorem test_reset_registers : (List.range 8).map State.reset.hostRegRead = [0, 0, 0, 0, 0, 0, 0, 0] := by decide

theorem test_reset_inv : State.reset.Inv := by decide

/-! Witnesses: for every statement with hypotheses, a state and operands that meet them all, one for each clause at a
boundary of its range. The name after `witness_` is the statement's. -/

/-- An idle machine whose host does `op` next. -/
def idle (op : HostOp) : State := State.reset.setScript [op]

/-- A machine with `c` latched whose host does `op` next. -/
def busyWith (c : Word) (op : HostOp) : State := (State.reset.setScript [op]).issue c

theorem witness_DecodeOfEncode : Instr.reveal.wellFormed := by decide

/-- Both clauses at their lowest word. -/
theorem witness_IllegalWordReportsIllCmd :
    ((busyWith 16 .wait).engineTurn = true ∧ (busyWith 16 .wait).cmdl = some 16 ∧ (16 : Word).toNat / 16 ≠ 0) ∧
      (busyWith 10 .wait).engineTurn = true ∧ (busyWith 10 .wait).cmdl = some 10 ∧ 9 < (10 : Word).toNat % 16 := by decide

theorem witness_StepRunsTheLatchedCommand :
    (busyWith 9 .wait).engineTurn = true ∧ (busyWith 9 .wait).cmdl = some 9 ∧ decode 9 = .instr .reveal := by decide

theorem witness_IssueLatchesTheWord :
    ((idle (.regWrite 0 5)).script = [.regWrite 0 5] ∧ (idle (.regWrite 0 5)).busy = false) ∧
      (busyWith 1 (.regWrite 0 5)).script = [.regWrite 0 5] ∧ (busyWith 1 (.regWrite 0 5)).busy = true := by decide

/-- One reading of `STATUS` and a `wait`, and the least case: none, and nothing left to do. -/
theorem witness_IssuedCommandCompletes :
    ((State.reset.setScript [.regRead 1, .wait]).issue 8).busy = true ∧ awaitsEngine [HostOp.wait] = true ∧
      ((State.reset.setScript [.regRead 1, .wait]).issue 8).script = List.replicate 1 (.regRead 1) ++ [.wait] ∧
      (State.reset.issue 8).script = List.replicate 0 (HostOp.regRead 1) ++ [] ∧ awaitsEngine [] = true := by decide

theorem witness_StatusWordFields : 4 ≤ 7 ∧ 7 < 8 ∧ 3 < 4 ∧ 12 ≤ 31 := by decide

/-- The first and the last register number and one beyond while idle, and each clause while busy. -/
theorem witness_HostRegisterPort :
    ((idle (.regRead 0)).busy = false ∧ (idle (.regRead 0)).script = [.regRead 0]) ∧
      ((idle (.regRead 7)).busy = false ∧ (idle (.regRead 7)).script = [.regRead 7]) ∧
      ((idle (.regWrite 8 1)).busy = false ∧ (idle (.regWrite 8 1)).script = [.regWrite 8 1]) ∧
      ((busyWith 1 (.regRead 1)).busy = true ∧ (busyWith 1 (.regRead 1)).script = [.regRead 1]) ∧
      ((busyWith 1 (.regRead 2)).script = [.regRead 2] ∧ 2 ≠ 1) ∧
      (busyWith 1 (.regWrite 0 1)).busy = true ∧ (busyWith 1 (.regWrite 0 1)).script = [.regWrite 0 1] := by decide

/-- The last cell of `MSG`, the first beyond, the largest value and the first too wide, and an access while busy. -/
theorem witness_HostMemoryAccess :
    State.reset.cfg.ok ∧ (idle (.memRead .msg 255)).busy = false ∧
      (idle (.memRead .msg 255)).script = [.memRead .msg 255] ∧ 255 < Space.msg.size State.reset.cfg ∧
      Space.msg.size State.reset.cfg ≤ 256 ∧ 65535 < 2 ^ Space.msg.width State.reset.cfg ∧
      2 ^ Space.msg.width State.reset.cfg ≤ 65536 ∧
      (idle (.memWrite .msg 255 65535)).script = [.memWrite .msg 255 65535] ∧
      (busyWith 1 (.memRead .msg 255)).busy = true ∧ (busyWith 1 (.memRead .msg 255)).script = [.memRead .msg 255] ∧
      (busyWith 1 (.memWrite .msg 255 1)).script = [.memWrite .msg 255 1] := by decide

theorem witness_BusyAllowsOnlyStatusRead :
    (busyWith 1 (.regRead 1)).busy = true ∧ (busyWith 1 (.regRead 1)).script = [.regRead 1] ∧
      (busyWith 1 (.regRead 2)).script = [.regRead 2] ∧ HostOp.regRead 2 ≠ .regRead 1 ∧ HostOp.regRead 2 ≠ .wait ∧
      HostOp.regRead 2 ≠ .reset := by decide

/-- Both sides of the equivalence hold somewhere and fail somewhere. -/
theorem witness_RefusedExactlyWhenHostErrs :
    ((idle (.memRead .bit 2048)).engineTurn = false ∧ ¬HostOp.allowed (.memRead .bit 2048) (idle (.memRead .bit 2048))) ∧
      HostOp.allowed (.memRead .bit 2047) (idle (.memRead .bit 2047)) := by decide

/-- A reset while a command is pending. -/
theorem witness_ResetEventClears : (busyWith 8 .reset).script = [.reset] := by decide

theorem witness_IdleKeepsState : State.reset.busy = false ∧ State.reset.script = [] := by decide

/-- Each clause: an input one too long, a result one bit too long, a first bad character, and a text that fits exactly. -/
theorem witness_PackStoresTextBits :
    (sized 0 2 16).ok ∧ (sized 0 2 16).msgSize < (small (sized 0 2 16) 0 0 3 0 [] [] []).mlen.toNat ∧
      (sized 0 2 15).bitSize < 8 * (small (sized 0 2 15) 0 0 2 0 [] [] []).mlen.toNat ∧
      (256 ≤ ((small (sized 0 2 16) 0 0 2 0 [] [] [255, 256]).readMsg 1).toNat ∧
        ∀ i, i < 1 → ((small (sized 0 2 16) 0 0 2 0 [] [] [255, 256]).readMsg i).toNat < 256) ∧
      (small (sized 0 2 16) 0 0 2 0 [] [] [255, 0]).textOk := by decide

/-- Each clause: a result text one too long, a sequence one bit too long, and one that fits exactly. -/
theorem witness_UnpackStoresBitsText :
    (sized 0 2 16).ok ∧ (sized 0 2 16).msgSize < (small (sized 0 2 16) 0 0 0 24 [] [] []).blen.toNat / 8 ∧
      ((small (sized 0 2 16) 0 0 0 17 [] [] []).blen.toNat / 8 ≤ (sized 0 2 16).msgSize ∧
        (sized 0 2 16).bitSize < (small (sized 0 2 16) 0 0 0 17 [] [] []).blen.toNat) ∧
      (small (sized 0 2 16) 0 0 0 16 [] [] []).blen.toNat / 8 ≤ (sized 0 2 16).msgSize ∧
      (small (sized 0 2 16) 0 0 0 16 [] [] []).blen.toNat ≤ (sized 0 2 16).bitSize := by decide

/-- Each clause: an image one cell too large, a sequence one bit too long, and both at their limits. -/
theorem witness_EncbSetsParities :
    (sized 3 0 4).ok ∧ (sized 2 0 4).pixSize < (small (sized 2 0 4) 1 1 0 4 [] [] []).np * 3 ∧
      ((small (sized 3 0 4) 1 1 0 5 [] [] []).np * 3 ≤ (sized 3 0 4).pixSize ∧
        (sized 3 0 4).bitSize < (small (sized 3 0 4) 1 1 0 5 [] [] []).blen.toNat) ∧
      (small (sized 3 0 4) 1 1 0 4 [] [] []).blen.toNat ≤ (sized 3 0 4).bitSize ∧
      2 < min (small (sized 3 0 4) 1 1 0 4 [] [] []).blen.toNat (small (sized 3 0 4) 1 1 0 4 [] [] []).nc := by decide

/-- Each clause: an image one cell too large, a sequence one bit too long, and both at their limits. -/
theorem witness_DecbReadsParities :
    (sized 3 0 3).ok ∧ (sized 2 0 3).pixSize < (small (sized 2 0 3) 1 1 0 0 [] [] []).np * 3 ∧
      (sized 3 0 2).bitSize < (small (sized 3 0 2) 1 1 0 0 [] [] []).nc ∧
      (small (sized 3 0 3) 1 1 0 0 [] [] []).np * 3 ≤ (sized 3 0 3).pixSize ∧
      (small (sized 3 0 3) 1 1 0 0 [] [] []).nc ≤ (sized 3 0 3).bitSize := by decide

/-- Each clause: an input one too long, a result one too long, and a result that fits exactly; `keep` with capacity 1 (V-F8)
and with capacity 5 (V-F6). -/
theorem witness_FrameAppendsStop :
    (sized 0 5 0).ok ∧ (1 = keepLen 1 (3 * 2 * 2 / 8) ∧ 1 = keepLen 5 (3 * 5 * 3 / 8)) ∧
      (sized 0 5 0).msgSize < (small (sized 0 5 0) 2 2 6 0 [] [] []).mlen.toNat ∧
      ((small (sized 0 4 0) 2 2 1 0 [] [] []).mlen.toNat ≤ (sized 0 4 0).msgSize ∧ (sized 0 4 0).msgSize < 1 + 4) ∧
      (small (sized 0 5 0) 2 2 1 0 [] [] []).mlen.toNat ≤ (sized 0 5 0).msgSize ∧ 1 + 4 ≤ (sized 0 5 0).msgSize := by decide

/-- Each clause: a text one too long, a terminator that ends with the text (V-N4) and a text without one (V-N2). -/
theorem witness_UnframeCutsAtFirstStop :
    (sized 0 5 0).msgSize < (small (sized 0 5 0) 0 0 6 0 [] [] []).mlen.toNat ∧
      ((small Config.test 0 0 6 0 [] [] [72, 105, 83, 84, 79, 80]).mlen.toNat ≤ Config.test.msgSize ∧
        (small Config.test 0 0 6 0 [] [] [72, 105, 83, 84, 79, 80]).firstStopAt 6 2) ∧
      ∀ r, ¬(small Config.test 0 0 3 0 [] [] [83, 84, 79]).stopAt 3 r := by
  refine ⟨by decide, by decide, ?_⟩
  intro r h
  have := h.1
  omega

/-- Each clause of HIDE in V-X7 to V-X12, `keep = 1`. -/
theorem witness_HideEncodesTheMessage :
    (sized 12 8 64).ok ∧ 1 = keepLen 1 (small (sized 12 8 64) 2 2 1 0 [] [] []).capv ∧
      (sized 10 4 16).pixSize < (small (sized 10 4 16) 2 2 5 0 [] [] []).np * 3 ∧
      (sized 12 4 16).msgSize < (small (sized 12 4 16) 2 2 5 0 [] [] []).mlen.toNat ∧
      ((small (sized 12 4 16) 2 2 1 0 [] [] []).mlen.toNat ≤ (sized 12 4 16).msgSize ∧ (sized 12 4 16).msgSize < 1 + 4) ∧
      (1 + 4 ≤ (sized 12 8 16).msgSize ∧ (sized 12 8 16).bitSize < 8 * (1 + 4)) ∧
      (8 * (1 + 4) ≤ (sized 12 8 40).bitSize ∧ 256 ≤ ((small (sized 12 8 40) 2 2 1 0 [] [] [300]).readMsg 0).toNat) ∧
      (small (sized 12 8 40) 2 2 1 0 [] [] [65]).textOk := by decide

/-- Each clause: an image too large, a text one too long, a sequence one bit too long, and all at their limits. -/
theorem witness_RevealDecodesTheImage :
    (sized 12 1 12).ok ∧ (sized 11 1 12).pixSize < (small (sized 11 1 12) 2 2 0 0 [] [] []).np * 3 ∧
      (sized 12 0 12).msgSize < (small (sized 12 0 12) 2 2 0 0 [] [] []).capv ∧
      (sized 12 1 11).bitSize < (small (sized 12 1 11) 2 2 0 0 [] [] []).nc ∧
      ((small (sized 12 1 12) 2 2 0 0 [] [] []).np * 3 ≤ (sized 12 1 12).pixSize ∧
        (small (sized 12 1 12) 2 2 0 0 [] [] []).capv ≤ (sized 12 1 12).msgSize ∧
        (small (sized 12 1 12) 2 2 0 0 [] [] []).nc ≤ (sized 12 1 12).bitSize) ∧
      ∀ r, ¬(small (sized 12 1 12) 2 2 0 0 [] [] []).stopAt 1 r := by
  refine ⟨by decide, by decide, by decide, by decide, by decide, ?_⟩
  intro r h
  have := h.1
  omega

/-- A text in `MSG` that starts with the terminator (the other clause of REVEAL). -/
theorem witness_RevealDecodesTheImage_found : (small Config.test 0 0 4 0 [] [] [83, 84, 79, 80]).firstStopAt 4 0 := by decide

/-- An illegal word, no cause at all, and of three causes the first (V-X7). -/
theorem witness_ReportedErrorIsFirst :
    ((busyWith 10 .wait).engineTurn = true ∧ (busyWith 10 .wait).cmdl = some 10 ∧ ¬legalWord 10) ∧
      (∀ code info, ¬raises .nop State.reset code info) ∧ raises .hide (small (sized 10 4 16) 2 2 5 0 [] [] []) 3 0 ∧
      raises .hide (small (sized 10 4 16) 2 2 5 0 [] [] []) 4 0 ∧
      ∀ code' info', raises .hide (small (sized 10 4 16) 2 2 5 0 [] [] []) code' info' →
        errRank 3 0 ≤ errRank code' info' := by
  refine ⟨by decide, ?_, by decide, by decide, fun _ _ _ => Nat.zero_le _⟩
  intro code info h
  simp [raises] at h

theorem witness_FailedCommandReportsOnly :
    (State.reset.withFetchWord 32 10).engineTurn = true ∧
      ∃ t, step (State.reset.withFetchWord 32 10) = .next t ∧ t.err = true :=
  ⟨by decide, exists_of_nextIs (by decide)⟩

theorem witness_NoCharErrorWithEightBitCells :
    (small { Config.test with cpw := 8 } 0 0 1 0 [] [] [255]).cfg.cpw = 8 ∧
      (small { Config.test with cpw := 8 } 0 0 1 0 [] [] [255]).memOk ∧
      ∃ t, exec .pack (small { Config.test with cpw := 8 } 0 0 1 0 [] [] [255]) = .next t ∧ t.err = false :=
  ⟨by decide, by decide, exists_of_nextIs (by decide)⟩

theorem witness_TextToBitsLayout : 1 < [(65 : CodePoint), 66].length ∧ 7 < 8 := by decide

theorem witness_BitsToTextValues : 1 < (List.replicate 17 (1 : Bit)).length / 8 := by decide

theorem witness_CodecLaws : (255 : CodePoint).toNat < 256 ∧ ∀ c ∈ [(0 : CodePoint), 255], c.toNat < 256 := by simp

/-- The two regimes where they meet, and the least bit budget of regime A. -/
theorem witness_KeepRegimes : 4 ≤ 4 ∧ 3 < 4 ∧ 4 ≤ 32 / 8 := by decide

/-- "STOSTOP", whose first terminator is at 3 (V-N5). -/
theorem witness_FindIsLeastIndex :
    (([83, 84, 79, 83, 84, 79, 80] : List CodePoint).drop 3).take 4 = [83, 84, 79, 80] ∧
      ∀ j, j < 3 → (([83, 84, 79, 83, 84, 79, 80] : List CodePoint).drop j).take 4 ≠ [83, 84, 79, 80] := by decide

/-- Texts with and without the terminator, and a FRAME that drops nothing (V-F2). -/
theorem witness_StopHasNoBorder :
    (1 ≤ 1 ∧ 3 ≤ 3) ∧ ((∀ c ∈ [(83 : CodePoint), 84, 79], c.toNat < 256) ∧ findStop [83, 84, 79] = none) ∧ Config.test.ok ∧
      ∃ t, exec .frame (small Config.test 4 4 2 0 [] [] [88, 88]) = .next t ∧ t.err = false ∧ t.trunc = false :=
  ⟨by decide, ⟨by simp, by decide⟩, by decide, exists_of_nextIs (by decide)⟩

theorem witness_PackThenUnpackKeepsText :
    (∀ c ∈ [(0 : CodePoint), 255], c.toNat < 256) ∧ (sized 0 2 16).ok ∧ (small (sized 0 2 16) 0 0 2 0 [] [] [0, 255]).mlen.toNat ≤ (sized 0 2 16).msgSize ∧
      8 * (small (sized 0 2 16) 0 0 2 0 [] [] [0, 255]).mlen.toNat ≤ (sized 0 2 16).bitSize ∧
      (small (sized 0 2 16) 0 0 2 0 [] [] [0, 255]).textOk :=
  ⟨by simp, by decide⟩

/-- V-E2: scan indices with a bit (0 to 3), without one (4 and 5), and a cell of no scan index (6). -/
def imageE2 : State := small Config.test 2 1 0 4 [0x00, 0x00, 0xFF, 0xFF, 0x07, 0x08] [0, 1, 1, 0] []

theorem witness_ParityInvariant :
    imageE2.cfg.ok ∧ (∃ t, exec .encb imageE2 = .next t ∧ t.err = false) ∧ 3 < min imageE2.blen.toNat imageE2.nc ∧
      (min imageE2.blen.toNat imageE2.nc ≤ 4 ∧ 4 < imageE2.nc) ∧ ∀ k, k < imageE2.nc → 6 ≠ scanAddr imageE2.cfg k :=
  ⟨by decide, exists_of_nextIs (by decide), by decide, by decide, by decide⟩

/-- Two images that agree on scan index 3 and differ elsewhere. -/
theorem witness_PixelsAreIndependent :
    imageE2.cfg.ok ∧ (small Config.test 3 2 0 5 [9, 9, 9, 0xFF] [1, 0, 0, 0, 1] []).cfg = imageE2.cfg ∧
      (∃ t, exec .encb imageE2 = .next t ∧ t.err = false) ∧
      (∃ t, exec .encb (small Config.test 3 2 0 5 [9, 9, 9, 0xFF] [1, 0, 0, 0, 1] []) = .next t ∧ t.err = false) ∧
      3 < min imageE2.blen.toNat imageE2.nc ∧
      imageE2.readPix 3 = (small Config.test 3 2 0 5 [9, 9, 9, 0xFF] [1, 0, 0, 0, 1] []).readPix 3 ∧
      imageE2.readBit 3 = (small Config.test 3 2 0 5 [9, 9, 9, 0xFF] [1, 0, 0, 0, 1] []).readBit 3 :=
  ⟨by decide, by decide, exists_of_nextIs (by decide), exists_of_nextIs (by decide), by decide, by decide, by decide⟩

theorem witness_DecbAfterEncb :
    imageE2.cfg.ok ∧ imageE2.np * imageE2.cfg.nch ≤ imageE2.cfg.pixSize ∧ imageE2.blen.toNat ≤ imageE2.cfg.bitSize ∧
      imageE2.nc ≤ imageE2.cfg.bitSize ∧ min imageE2.blen.toNat imageE2.nc ≤ 4 ∧ 4 < imageE2.nc := by decide

theorem witness_SecondEncbChangesNothing : imageE2.cfg.ok ∧ ∃ t, exec .encb imageE2 = .next t ∧ t.err = false :=
  ⟨by decide, exists_of_nextIs (by decide)⟩

/-- V-N6. -/
theorem witness_SecondUnframeFindsNothing :
    ∃ t, exec .unframe (small Config.test 0 0 10 0 [] [] [65, 83, 84, 79, 80, 66, 83, 84, 79, 80]) = .next t ∧ t.err = false :=
  exists_of_nextIs (by decide)

theorem witness_HideEqualsItsParts :
    Config.test.ok ∧ ∃ t, exec .hide (small Config.test 2 2 1 0 imageP2 [] [65]) = .next t ∧ t.err = false :=
  ⟨by decide, exists_of_nextIs (by decide)⟩

theorem witness_RevealEqualsItsParts :
    Config.test.ok ∧ ∃ t, exec .reveal (small Config.test 2 2 0 0 imageP2 [] []) = .next t ∧ t.err = false :=
  ⟨by decide, exists_of_nextIs (by decide)⟩

/-- P1's message and sizes, the exact fit. -/
theorem witness_HideRevealRoundTrip :
    (small Config.test 4 4 2 0 [] [] [72, 105]).fits ∧ (small Config.test 4 4 2 0 [] [] [72, 105]).mlen.toNat + 4 ≤
        (small Config.test 4 4 2 0 [] [] [72, 105]).capv ∧
      findStop (small Config.test 4 4 2 0 [] [] [72, 105]).text = none := by decide

/-- P3's message and sizes. -/
theorem witness_HideRevealTruncates :
    (small Config.test 5 3 5 0 [] [] [72, 69, 76, 76, 79]).fits ∧
      4 ≤ (small Config.test 5 3 5 0 [] [] [72, 69, 76, 76, 79]).capv ∧
      (small Config.test 5 3 5 0 [] [] [72, 69, 76, 76, 79]).capv - 4 < 5 ∧
      findStop ((small Config.test 5 3 5 0 [] [] [72, 69, 76, 76, 79]).text.take 1) = none := by decide

/-- V-H2: five channels left over, the first of them 40. -/
theorem witness_HideAtTheBoundary :
    (small Config.test 5 3 1 0 [] [] [72]).fits ∧ (small Config.test 5 3 1 0 [] [] [72]).capv = 1 + 4 ∧
      39 < 8 * (small Config.test 5 3 1 0 [] [] [72]).capv ∧ 8 * (small Config.test 5 3 1 0 [] [] [72]).capv ≤ 40 ∧
      40 < (small Config.test 5 3 1 0 [] [] [72]).nc := by decide

theorem witness_RevealWithoutMessage :
    Config.test.ok ∧ (∃ t, exec .reveal (small Config.test 2 2 0 0 imageP2 [] []) = .next t ∧ t.err = false) ∧
      findStop (bitsToText (small Config.test 2 2 0 0 imageP2 [] []).imageBits) = none :=
  ⟨by decide, exists_of_nextIs (by decide), by decide⟩

/-- The last scan index of a 5 × 3 image. -/
theorem witness_ScanIsRowMajor : 0 < 5 ∧ 44 < 3 * (5 * 3) ∧ Config.test.nch = 3 := by decide

/-- An image of 2 × 1 read as 1 × 2, and a smaller one of 1 × 1. -/
theorem witness_GeometryEntersAsProduct :
    (1 : Dim).toNat * (2 : Dim).toNat = imageE2.width.toNat * imageE2.height.toNat ∧ imageE2.cfg.ok ∧
      (∃ t, exec .encb imageE2 = .next t ∧ t.err = false ∧
        nextIs (exec .decb { t with width := 1, height := 1 }) (fun u => u.err = false) = true) ∧
      2 < min imageE2.blen.toNat imageE2.nc ∧ 2 < 3 * ((1 : Dim).toNat * (1 : Dim).toNat) :=
  ⟨by decide, by decide, exists_of_nextIs (by decide), by decide, by decide⟩

/-- Four channels a pixel and another value in channel 3 of the first pixel. -/
theorem witness_UpperChannelsUntouched :
    fourChannels.ok ∧ upperCell fourChannels 3 ∧
      (∃ t, exec .encb (small fourChannels 1 1 0 3 [1, 2, 3, 4] [0, 0, 0] []) = .next t) ∧
      ∀ a, ¬upperCell fourChannels a →
        State.readPix ((small fourChannels 1 1 0 3 [1, 2, 3, 4] [0, 0, 0] []).writePix 3 9) a =
          (small fourChannels 1 1 0 3 [1, 2, 3, 4] [0, 0, 0] []).readPix a := by
  refine ⟨by decide, by decide, ⟨_, rfl⟩, ?_⟩
  intro a ha
  rw [State.readPix_writePix, if_neg]
  intro h
  subst h
  exact ha (by decide)

theorem witness_OnlyBitZeroOfPixChanges : (∃ t, exec .decb imageE2 = .next t) ∧ Instr.decb ≠ .encb ∧ Instr.decb ≠ .hide :=
  ⟨⟨_, rfl⟩, by decide, by decide⟩

theorem witness_WrittenCharactersBelow256 :
    ∃ t, exec .unpack (small Config.test 0 0 0 8 [] [1, 1, 1, 1, 1, 1, 1, 1] []) = .next t ∧ t.readMsg 0 = 255 :=
  exists_of_nextIs (by decide)

theorem witness_CaprOnlyFromCap : (∃ t, exec .cap State.reset = .next t) ∧ (∃ t, exec .nop State.reset = .next t) ∧
    Instr.nop ≠ .cap :=
  ⟨⟨_, rfl⟩, ⟨_, rfl⟩, by decide⟩

/-- Each flag set by some command: `ERR`, `TRUNC` (V-E4) and `FOUND` (V-N3). -/
theorem witness_FlagsReadByNoCommand :
    (∃ t, exec .decb (small Config.test 27 27 0 0 [] [] []) = .next t ∧ t.err = true) ∧
      (∃ t, exec .encb (small Config.test 1 1 0 4 [4, 5, 6] [1, 1, 1, 1] []) = .next t ∧ t.trunc = true) ∧
      ∃ t, exec .unframe (small Config.test 0 0 4 0 [] [] [83, 84, 79, 80]) = .next t ∧ t.found = true :=
  ⟨exists_of_nextIs (by decide), exists_of_nextIs (by decide), exists_of_nextIs (by decide)⟩

theorem witness_PseudoStatementRunsTheCommand :
    (State.reset.setScript (scriptOps [.cmd .cap, .rd .capr])).busy = false ∧
      (State.reset.setScript (scriptOps [.cmd .cap, .rd .capr])).script = Stmt.expand (.cmd .cap) ++ [.regRead 7] := by decide

theorem witness_InvAfterReset : (sized 0 0 0).ok ∧ fourChannels.ok := by decide

/-- The invariant before a step of the engine and before one of the host. -/
theorem witness_StepKeepsInv :
    ((imageE2.withFetchWord 32 4).Inv ∧ ∃ t, step (imageE2.withFetchWord 32 4) = .next t ∧ t.err = false) ∧
      (idle (.memWrite .msg 255 65535)).Inv ∧ ∃ t, step (idle (.memWrite .msg 255 65535)) = .next t ∧ t.err = false :=
  ⟨⟨by decide, exists_of_nextIs (by decide)⟩, by decide, exists_of_nextIs (by decide)⟩

end Sys2Proof.Tests
end

section
/-! PROOF. Every step keeps the invariant of the machine (O58), and eight-bit cells never raise `Char` (O26). First what
each write keeps of the memories, then what a command, an access of the host and a step keep of the invariant, and last the
characters. -/

namespace Sys2Proof.Machine

/-! ## What each write keeps of the memories -/

/-- A channel written inside `PIX` keeps the memories (R50). -/
theorem State.memOk_writePix {s : State} {a : Nat} {v : Channel} (h : s.memOk) (ha : a < s.cfg.pixSize) :
    (s.writePix a v).memOk := by
  obtain ⟨hpix, hrest⟩ := h
  exact ⟨Memory.wf_write hpix ha v.isLt, hrest⟩

/-- A run of bits written inside `BIT` keeps the memories (R50). -/
theorem State.memOk_writeBits {s : State} {i : Nat} {vs : List Bit} (h : s.memOk)
    (hi : i + vs.length ≤ s.cfg.bitSize) : (s.writeBits i vs).memOk := by
  obtain ⟨hpix, hbit, hmsg⟩ := h
  exact ⟨hpix, Memory.wf_writeSeq hbit (fun _ => hi) fun v _ => v.isLt, hmsg⟩

/-- A run of characters of the cell's width written inside `MSG` keeps the memories (R50). -/
theorem State.memOk_writeMsgs {s : State} {j : Nat} {vs : List CodePoint} (h : s.memOk)
    (hj : j + vs.length ≤ s.cfg.msgSize) (hv : ∀ c ∈ vs, c.toNat < 2 ^ s.cfg.cpw) : (s.writeMsgs j vs).memOk := by
  obtain ⟨hpix, hbit, hmsg⟩ := h
  exact ⟨hpix, hbit, Memory.wf_writeSeq hmsg (fun _ => hj) hv⟩

/-- A success writes no cell (R75). -/
theorem State.memOk_succeed {s : State} (h : s.memOk) (trunc found : Bool) : (s.succeed trunc found).memOk := h

/-- A legal cell of `MSG` holds every value of eight bits (R5). -/
theorem Config.lt_two_pow_cpw {cfg : Config} {n : Nat} (hcfg : cfg.ok) (hn : n < 256) : n < 2 ^ cfg.cpw :=
  Nat.lt_of_lt_of_le hn (Nat.pow_le_pow_right (n := 2) (i := 8) Nat.two_pos hcfg.2.1)

/-- PACK's writes keep the memories when their bits fit (R91). -/
theorem State.memOk_packText {s : State} (h : s.memOk) (hb : 8 * s.mlen.toNat ≤ s.cfg.bitSize) : s.packText.memOk :=
  State.memOk_writeBits h (by simpa using hb)

/-- UNPACK's writes keep the memories when their characters fit (R93). -/
theorem State.memOk_unpackBits {s : State} (hcfg : s.cfg.ok) (h : s.memOk)
    (hm : s.blen.toNat / 8 ≤ s.cfg.msgSize) : s.unpackBits.memOk :=
  State.memOk_writeMsgs h (by simpa using hm) fun c hc => Config.lt_two_pow_cpw hcfg (bitsToText_lt _ c hc)

/-- DECB's writes keep the memories when their bits fit (R116). -/
theorem State.memOk_decodeImage {s : State} (h : s.memOk) (hb : s.nc ≤ s.cfg.bitSize) : s.decodeImage.memOk :=
  State.memOk_writeBits h (by simpa using hb)

/-- Every character of the terminator is below 256 (R120). -/
theorem terminator_lt : ∀ c ∈ terminator, c.toNat < 256 := by
  simp [terminator]

/-- FRAME's writes keep the memories when the framed text fits (R121). -/
theorem State.memOk_frameText {s : State} (hcfg : s.cfg.ok) (h : s.memOk) (hm : s.keep + 4 ≤ s.cfg.msgSize) :
    s.frameText.memOk := by
  have hwrite : (s.writeMsgs s.keep terminator).memOk :=
    State.memOk_writeMsgs h hm fun c hc => Config.lt_two_pow_cpw hcfg (terminator_lt c hc)
  exact hwrite

/-- ENCB's writes keep the memories when the image lies inside `PIX` (R106). -/
theorem State.memOk_encodeBits {s : State} (hcfg : s.cfg.ok) (h : s.memOk) (hg : s.np * s.cfg.nch ≤ s.cfg.pixSize) :
    s.encodeBits.memOk := by
  obtain ⟨hpix, hrest⟩ := h
  have hscan : s.encodeBits.pix.wf s.cfg.pixSize (2 ^ 8) := by
    refine State.encodeFrom_wf hpix fun i _ hi => ?_
    have hnc : i < 3 * s.np := by
      simp only [State.bitsUpTo_length, State.nc] at hi
      omega
    exact Nat.lt_of_lt_of_le (scanAddr_lt hcfg.1 hnc) hg
  rw [State.encodeBits_eq]
  exact ⟨hscan, hrest⟩

/-- HIDE's writes keep the memories under its checks (R130): those of FRAME, of PACK and of ENCB in turn. -/
theorem State.memOk_hideText {s : State} (hcfg : s.cfg.ok) (h : s.memOk) (hg : s.np * s.cfg.nch ≤ s.cfg.pixSize)
    (hm : s.keep + 4 ≤ s.cfg.msgSize) (hb : 8 * (s.keep + 4) ≤ s.cfg.bitSize) : s.hideText.memOk := by
  have hmlen : s.frameText.mlen.toNat ≤ s.keep + 4 := by
    simp only [State.frameText, State.setMlen_mlen, BitVec.toNat_ofNat]
    exact Nat.mod_le _ _
  have hframed : s.frameText.memOk := State.memOk_frameText hcfg h hm
  have hpacked : s.frameText.packText.memOk := State.memOk_packText hframed (by rw [State.frameText_cfg]; omega)
  rw [State.hideText]
  exact State.memOk_encodeBits (by simpa using hcfg) hpacked (by simpa using hg)

/-- UNFRAME writes no cell (R124). -/
theorem State.memOk_unframeText {s : State} (h : s.memOk) : s.unframeText.memOk := by
  simpa only [State.memOk, State.unframeText_cfg, State.unframeText_pix, State.unframeText_bit,
    State.unframeText_msg] using h

/-- REVEAL's writes keep the memories under its checks (R132): those of DECB, of UNPACK and of UNFRAME in turn. -/
theorem State.memOk_revealText {s : State} (hcfg : s.cfg.ok) (h : s.memOk) (hm : s.capv ≤ s.cfg.msgSize)
    (hb : s.nc ≤ s.cfg.bitSize) : s.decodeImage.unpackBits.unframeText.memOk := by
  have hblen : s.decodeImage.blen.toNat ≤ s.nc := by
    simp only [State.decodeImage, State.setBlen_blen, BitVec.toNat_ofNat]
    exact Nat.mod_le _ _
  have hunpack : s.decodeImage.blen.toNat / 8 ≤ s.cfg.msgSize := by
    simp only [State.capv] at hm
    omega
  exact State.memOk_unframeText (State.memOk_unpackBits hcfg (State.memOk_decodeImage h hb) hunpack)

/-! ## What a command keeps -/

/-- A command whose checks pass keeps the memories. -/
theorem effectOf_memOk {i : Instr} {s : State} (hcfg : s.cfg.ok) (h : s.memOk) (hc : checksOf i s = none) :
    (effectOf i s).memOk := by
  cases i with
  | nop => exact h
  | cap => exact h
  | pack =>
    obtain ⟨-, hb, -⟩ := s.packCheck_none.mp hc
    exact State.memOk_succeed (State.memOk_packText h hb) _ _
  | unpack => exact State.memOk_succeed (State.memOk_unpackBits hcfg h (s.unpackCheck_none.mp hc).1) _ _
  | encb => exact State.memOk_succeed (State.memOk_encodeBits hcfg h (s.encbCheck_none.mp hc).1) _ _
  | decb => exact State.memOk_succeed (State.memOk_decodeImage h (s.decbCheck_none.mp hc).2) _ _
  | frame => exact State.memOk_succeed (State.memOk_frameText hcfg h (s.frameCheck_none.mp hc).2) _ _
  | unframe => exact State.memOk_unframeText h
  | hide =>
    obtain ⟨hg, -, hm, hb, -⟩ := s.hideCheck_none.mp hc
    exact State.memOk_succeed (State.memOk_hideText hcfg h hg hm hb) _ _
  | reveal =>
    obtain ⟨-, hm, hb⟩ := s.revealCheck_none.mp hc
    exact State.memOk_revealText hcfg h hm hb

/-- A command keeps the parameters. -/
@[simp] theorem effectOf_cfg (i : Instr) (s : State) : (effectOf i s).cfg = s.cfg := by
  cases i <;> simp [effectOf]

/-- The effect of a command ends with a success, of `TRUNC` and `FOUND` at most one set (R75, R30). -/
theorem effectOf_succeeded (i : Instr) (s : State) :
    ∃ trunc found, (effectOf i s).succeeded trunc found ∧ ¬(trunc = true ∧ found = true) := by
  have hsucceed : ∀ (u : State) (trunc : Bool),
      ∃ t f, (u.succeed trunc false).succeeded t f ∧ ¬(t = true ∧ f = true) := fun u trunc =>
    ⟨trunc, false, ⟨rfl, rfl, rfl, rfl, rfl, rfl⟩, by simp⟩
  have hunframe : ∀ u : State, ∃ t f, u.unframeText.succeeded t f ∧ ¬(t = true ∧ f = true) := fun u =>
    ⟨false, u.unframeText.found, by simp [State.succeeded, State.busy], by simp⟩
  cases i with
  | nop | cap | pack | unpack | encb | decb | frame | hide => exact hsucceed _ _
  | unframe | reveal => exact hunframe _

/-- The report of a success with at most one of `TRUNC` and `FOUND` is one the spec knows. -/
theorem State.reportOk_of_succeeded {s : State} {trunc found : Bool} (h : s.succeeded trunc found)
    (hflags : ¬(trunc = true ∧ found = true)) : s.reportOk := by
  obtain ⟨-, herr, rfl, rfl, hecode, hinfo⟩ := h
  simpa [State.reportOk, herr, hecode, hinfo] using hflags

/-- The code of an error is one of 1 to 5 (R140). -/
theorem Err.code_bounds (e : Err) : 1 ≤ e.code.toNat ∧ e.code.toNat ≤ 5 := by
  cases e <;> decide

/-- The report of a raised error is one the spec knows (R146). -/
theorem State.reportOk_raise (s : State) (e : Err) (info : Word) : (s.raise e info).reportOk := by
  obtain ⟨hpos, hle⟩ := e.code_bounds
  have hne : e.code ≠ 0 := fun h => by simp [h] at hpos
  exact ⟨hle, ⟨fun _ => hne, fun _ => rfl⟩, fun _ => ⟨rfl, rfl⟩, nofun, nofun⟩

/-- The capacity is below its bound (R32). -/
theorem State.capv_le (s : State) : s.capv ≤ 1610563584 := by
  have hnp := s.np_le
  simp only [State.capv, State.nc]
  omega

/-- A command leaves `CAPR` as it was or writes the capacity there, so it stays below its bound (R29, R32). -/
theorem effectOf_capr_le (i : Instr) {s : State} (h : s.capr.toNat ≤ 1610563584) :
    (effectOf i s).capr.toNat ≤ 1610563584 := by
  cases i with
  | cap =>
    simp only [effectOf, State.succeed_capr, State.setCapr_capr, BitVec.toNat_ofNat]
    exact Nat.le_trans (Nat.mod_le _ _) s.capv_le
  | nop | pack | unpack | encb | decb | frame | unframe | hide | reveal => simpa [effectOf] using h

/-- An error raised changes nothing of the invariant but the report. -/
theorem State.inv_raise {s : State} (h : s.Inv) (e : Err) (info : Word) : (s.raise e info).Inv := by
  obtain ⟨hcfg, hmem, -, hcapr⟩ := h
  exact ⟨hcfg, hmem, s.reportOk_raise e info, hcapr⟩

/-- Every command keeps the invariant. -/
theorem exec_inv {i : Instr} {s t : State} (h : s.Inv) (ht : exec i s = .next t) : t.Inv := by
  rcases exec_cases ht with ⟨e, info, -, rfl⟩ | ⟨hc, rfl⟩
  · exact State.inv_raise h e info
  · obtain ⟨hcfg, hmem, -, hcapr⟩ := h
    obtain ⟨trunc, found, hsucc, hflags⟩ := effectOf_succeeded i s
    exact ⟨by rwa [effectOf_cfg], effectOf_memOk hcfg hmem hc, State.reportOk_of_succeeded hsucc hflags,
      effectOf_capr_le i hcapr⟩

/-- The completion of any word, a command's or an illegal one, keeps the invariant. -/
theorem completeWord_inv {c : Word} {s t : State} (h : s.Inv) (ht : completeWord c s = .next t) : t.Inv := by
  simp only [completeWord] at ht
  split at ht
  · exact exec_inv h ht
  · obtain rfl := Host.Outcome.next.inj ht
    exact State.inv_raise h _ _

/-! ## What the host's accesses keep -/

/-- A register write of the host keeps the invariant: it reaches no parameter, cell, report or `CAPR` (R28). -/
theorem State.inv_hostRegWrite {s : State} (h : s.Inv) (n : Nat) (v : Word) : (s.hostRegWrite n v).Inv := by
  simp only [State.hostRegWrite]
  split <;> exact h

/-- A memory write of the host inside its domain keeps the memories (R56). -/
theorem State.memOk_hostMemWrite {s : State} {sp : Space} {a v : Nat} (h : s.memOk) (ha : a < sp.size s.cfg)
    (hv : v < 2 ^ sp.width s.cfg) : (s.hostMemWrite sp a v).memOk := by
  cases sp with
  | pix => exact State.memOk_writePix h ha
  | bit => exact State.memOk_writeBits h ha
  | msg =>
    refine State.memOk_writeMsgs h ha fun c hc => ?_
    obtain rfl := List.mem_singleton.mp hc
    rw [BitVec.toNat_ofNat]
    exact Nat.lt_of_le_of_lt (Nat.mod_le _ _) hv

/-- A memory write of the host inside its domain keeps the invariant. -/
theorem State.inv_hostMemWrite {s : State} {sp : Space} {a v : Nat} (h : s.Inv) (ha : a < sp.size s.cfg)
    (hv : v < 2 ^ sp.width s.cfg) : (s.hostMemWrite sp a v).Inv := by
  obtain ⟨hcfg, hmem, hreport, hcapr⟩ := h
  have hmem' := State.memOk_hostMemWrite hmem ha hv
  cases sp <;> exact ⟨hcfg, hmem', hreport, hcapr⟩

/-- The reset event reaches a state that meets the invariant from every legal configuration (R37, R160). -/
theorem State.inv_resetEvent {s : State} (hcfg : s.cfg.ok) : s.resetEvent.Inv :=
  ⟨hcfg, State.resetOf_canonical s.cfg (s.epoch + 1), by simp [State.reportOk], by simp⟩

/-- Every access of the host that has a step keeps the invariant. -/
theorem hostAccess_inv {s t : State} {op : HostOp} (h : s.Inv) (ht : hostAccess s op = .next t) : t.Inv := by
  cases op with
  | regRead n =>
    obtain rfl := Host.Outcome.next.inj ht
    exact h
  | regWrite n v =>
    obtain rfl := Host.Outcome.next.inj ht
    exact State.inv_hostRegWrite h n v
  | memRead sp a =>
    simp only [hostAccess] at ht
    split at ht
    · cases ht
    · obtain rfl := Host.Outcome.next.inj ht
      exact h
  | memWrite sp a v =>
    simp only [hostAccess] at ht
    split at ht
    · cases ht
    · split at ht
      · cases ht
      · obtain rfl := Host.Outcome.next.inj ht
        exact State.inv_hostMemWrite h (by omega) (by omega)
  | wait =>
    obtain rfl := Host.Outcome.next.inj ht
    exact h
  | reset =>
    obtain rfl := Host.Outcome.next.inj ht
    exact State.inv_resetEvent h.1

/-- An access that has a step while busy does what it does while idle (R166). -/
theorem hostAccess_of_busy {s t : State} {op : HostOp} (ht : hostAccessBusy s op = .next t) :
    hostAccess s op = .next t := by
  simp only [hostAccessBusy] at ht
  split at ht
  · exact ht
  · exact ht
  · exact ht
  · cases ht

/-! ## What a step keeps -/

/-- What a step of the host can do: nothing when nothing is pending, else its next operation. -/
theorem hostTurn_cases {s t : State} (ht : hostTurn s = .next t) :
    t = s ∨ ∃ op rest, s.script = op :: rest ∧ hostAccess (s.setScript rest) op = .next t := by
  simp only [hostTurn] at ht
  split at ht
  · exact Or.inl (Host.Outcome.next.inj ht).symm
  · rename_i op rest hscript
    refine Or.inr ⟨op, rest, hscript, ?_⟩
    split at ht
    · exact hostAccess_of_busy ht
    · exact ht

/-- Settles O58: the engine's step is the completion of the latched word and every other step one access of the host, and
each of the two keeps the invariant. -/
theorem stepKeepsInv : Obligations.StepKeepsInv := by
  intro s t h ht
  rcases hturn : s.engineTurn with _ | _
  · rw [step_host hturn] at ht
    rcases hostTurn_cases ht with rfl | ⟨op, rest, -, hop⟩
    · exact h
    · have hrest : (s.setScript rest).Inv := h
      exact hostAccess_inv hrest hop
  · obtain ⟨c, hc⟩ := engineTurn_latched hturn
    rw [step_engine hturn hc] at ht
    exact completeWord_inv h ht

/-! ## Characters that fit their cells -/

/-- A character of `MSG` fits its cell, written or not (R50, R162). -/
theorem State.readMsg_lt {s : State} (h : s.memOk) (j : Nat) : (s.readMsg j).toNat < 2 ^ s.cfg.cpw := by
  obtain ⟨-, -, -, hcells⟩ := h
  rw [State.readMsg]
  rcases hj : s.msg.get? j with _ | v
  · rw [Option.getD_none, BitVec.toNat_ofNat]
    exact Nat.lt_of_le_of_lt (Nat.mod_le _ _) (Nat.mod_lt _ (Nat.two_pow_pos _))
  · exact (hcells _ (Memory.mem_of_get? hj)).2

/-- Only error `Char` has code 2 (R140). -/
theorem Err.code_eq_two {e : Err} (h : e.code = 2) : e = .char := by
  cases e with
  | char => rfl
  | illCmd | geom | msgRange | bitRange => exact absurd h (by decide)

/-- A check that only ever gives another error gives no `Char`. -/
theorem ne_char_of_some {check : Option (Err × Word)} {e : Err} {n : Word}
    (hsome : ∀ {x}, check = some x → x = (e, n)) (he : e ≠ .char) (info : Word) : check ≠ some (.char, info) :=
  fun h => he (congrArg Prod.fst (hsome h)).symm

@[simp] theorem State.geomCheck_ne_char (s : State) (info : Word) : s.geomCheck ≠ some (.char, info) :=
  ne_char_of_some State.geomCheck_some nofun info

@[simp] theorem State.textCheck_ne_char (s : State) (info : Word) : s.textCheck ≠ some (.char, info) :=
  ne_char_of_some State.textCheck_some nofun info

@[simp] theorem State.textRoom_ne_char (s : State) (n : Nat) (info : Word) : s.textRoom n ≠ some (.char, info) :=
  ne_char_of_some State.textRoom_some nofun info

@[simp] theorem State.bitsCheck_ne_char (s : State) (info : Word) : s.bitsCheck ≠ some (.char, info) :=
  ne_char_of_some State.bitsCheck_some nofun info

@[simp] theorem State.bitsRoom_ne_char (s : State) (n : Nat) (info : Word) : s.bitsRoom n ≠ some (.char, info) :=
  ne_char_of_some State.bitsRoom_some nofun info

/-- A list of checks gives `Char` only past a first check that never does. -/
theorem char_of_orElse {a b : Option (Err × Word)} {info : Word} (ha : a ≠ some (.char, info))
    (h : (a <|> b) = some (.char, info)) : b = some (.char, info) :=
  (orElse_eq_some h).elim (fun hleft => absurd hleft ha) And.right

/-- A command raises `Char` only where the check of the text's characters does, the last one of PACK and of HIDE
(R142). -/
theorem charCheck_of_checksOf {i : Instr} {s : State} {info : Word} (h : checksOf i s = some (.char, info)) :
    s.charCheck = some (.char, info) := by
  cases i with
  | pack => exact char_of_orElse (by simp) (char_of_orElse (by simp) h)
  | hide =>
    have hpastText := char_of_orElse (s.textCheck_ne_char info) (char_of_orElse (s.geomCheck_ne_char info) h)
    exact char_of_orElse (by simp) (char_of_orElse (by simp) hpastText)
  | nop | cap => nomatch h
  | unframe => exact absurd h (s.textCheck_ne_char info)
  | unpack | encb | decb | frame => exact absurd (char_of_orElse (by simp) h) (by simp)
  | reveal => exact absurd (char_of_orElse (by simp) (char_of_orElse (by simp) h)) (by simp)

/-- Settles O26: a character that fits an eight-bit cell is below 256, so the check of the text's characters passes. -/
theorem noCharErrorWithEightBitCells : Obligations.NoCharErrorWithEightBitCells := by
  intro i s t hcpw hmem ht hcode
  have hpass : s.charCheck = none := by
    refine s.charCheck_none.mpr fun j _ => ?_
    have hfit := State.readMsg_lt hmem j
    rwa [hcpw] at hfit
  rcases exec_cases ht with ⟨e, info, hcheck, rfl⟩ | ⟨-, rfl⟩
  · obtain rfl := Err.code_eq_two hcode
    exact absurd (charCheck_of_checksOf hcheck) (by simp [hpass])
  · obtain ⟨_, _, ⟨-, -, -, -, hecode, -⟩, -⟩ := effectOf_succeeded i s
    simp [hecode] at hcode

end Sys2Proof.Machine
end

section
/-! PROOF. The registers (10_state.md): the derived quantities (O54) and the script notation (O55), the bits of STATUS
(O7), the host's register accesses (O8), the reset (O12, O57), and which registers a command writes and reads (O51, O52,
O53). -/

namespace Sys2Proof.Machine

/-! ## The derived quantities and the script notation -/

/-- Settles O54: the bounds of `NP` and of `CAPV` are those of R32, and `NC` is three times `NP`. -/
theorem derivedQuantityBounds : Obligations.DerivedQuantityBounds := by
  intro s
  have hnp := s.np_le
  have hnc : s.nc = 3 * s.np := rfl
  exact ⟨rfl, by omega, hnc, by omega, rfl, s.capv_le⟩

/-- Settles O55: each conjunct is the row of R21, R78 or R79 that `Reg.num` and `Stmt.expand` copy, with the word of the
command (R72) computed. -/
theorem pseudoStatementsExpand : Obligations.PseudoStatementsExpand :=
  ⟨rfl, rfl, rfl, rfl, rfl, rfl, rfl, rfl, rfl, rfl, rfl, rfl, fun _ _ => ⟨rfl, rfl⟩⟩

/-! ## The status word -/

/-- A flag shifted to bit `k` of a word is that bit and no other. -/
theorem getLsbD_ofBool_shiftLeft (f : Bool) {k : Nat} (hk : k < 32) (b : Nat) :
    ((BitVec.ofBool f).setWidth 32 <<< k).getLsbD b = (decide (b = k) && f) := by
  rw [BitVec.getLsbD_shiftLeft, BitVec.getLsbD_setWidth, BitVec.getLsbD_ofBool]
  rcases Nat.lt_trichotomy b k with hlt | rfl | hgt
  · simp [hlt, Nat.ne_of_lt hlt]
  · simp [hk]
  · simp [Nat.ne_of_gt hgt, Nat.sub_ne_zero_of_lt hgt]

/-- `ECODE` shifted to bit 8 of a word keeps its bits (R23). -/
theorem getLsbD_ecode_shiftLeft (code : BitVec 4) (b : Nat) :
    (code.setWidth 32 <<< 8).getLsbD b = (decide (8 ≤ b) && code.getLsbD (b - 8)) := by
  rw [BitVec.getLsbD_shiftLeft, BitVec.getLsbD_setWidth]
  by_cases hhigh : 12 ≤ b
  · simp [BitVec.getLsbD_of_ge code (b - 8) (by omega)]
  · have hin : b < 32 := by omega
    have hin' : b - 8 < 32 := by omega
    simp [hin, hin', ← decide_not]

/-- Every bit of `STATUS` as the host reads it (R23): the four flags in bits 0 to 3 and `ECODE` from bit 8 on. -/
theorem State.statusWord_getLsbD (s : State) (b : Nat) :
    s.statusWord.getLsbD b = (decide (b = 0) && s.busy || decide (b = 1) && s.err || decide (b = 2) && s.trunc ||
      decide (b = 3) && s.found || decide (8 ≤ b) && s.ecode.getLsbD (b - 8)) := by
  have hbusy := getLsbD_ofBool_shiftLeft s.busy (k := 0) (by decide) b
  rw [BitVec.shiftLeft_zero] at hbusy
  simp only [State.statusWord, BitVec.getLsbD_or, hbusy, getLsbD_ecode_shiftLeft,
    getLsbD_ofBool_shiftLeft _ (show 1 < 32 by decide), getLsbD_ofBool_shiftLeft _ (show 2 < 32 by decide),
    getLsbD_ofBool_shiftLeft _ (show 3 < 32 by decide)]

/-- From bit 4 on `STATUS` holds `ECODE` alone (R23). -/
theorem State.statusWord_getLsbD_of_le (s : State) {b : Nat} (hb : 4 ≤ b) :
    s.statusWord.getLsbD b = (decide (8 ≤ b) && s.ecode.getLsbD (b - 8)) := by
  have hflags : b ≠ 0 ∧ b ≠ 1 ∧ b ≠ 2 ∧ b ≠ 3 := by omega
  simp [State.statusWord_getLsbD, hflags]

/-- Settles O7: the flags are bits 0 to 3, and from bit 4 on there is `ECODE` alone, at 8 and of four bits. -/
theorem statusWordFields : Obligations.StatusWordFields := by
  intro s
  have hbit := s.statusWord_getLsbD
  refine ⟨(hbit 0).trans (by simp), (hbit 1).trans (by simp), (hbit 2).trans (by simp), (hbit 3).trans (by simp),
    fun b hlo hhi => ?_, fun b _ => ?_, fun b hb => ?_⟩
  · simp [s.statusWord_getLsbD_of_le hlo, hhi]
  · simp [s.statusWord_getLsbD_of_le (show 4 ≤ 8 + b by omega)]
  · have hwide : s.ecode.getLsbD (b - 8) = false := BitVec.getLsbD_of_ge _ _ (by omega)
    simp [s.statusWord_getLsbD_of_le (show 4 ≤ b by omega), hwide]

/-! ## The step of the host's next operation -/

/-- While `BUSY = 0` a step is the host's next operation. -/
theorem step_of_idle {s : State} {op : HostOp} {rest : List HostOp} (hidle : s.busy = false)
    (hscript : s.script = op :: rest) : step s = hostAccess (s.setScript rest) op := by
  rw [step_host (by simp [State.engineTurn, hidle])]
  simp [hostTurn, hscript, hidle]

/-- While `BUSY = 1` a step is the host's next operation, unless the host waits (R171). -/
theorem step_of_busy {s : State} {op : HostOp} {rest : List HostOp} (hbusy : s.busy = true)
    (hscript : s.script = op :: rest) (hop : op ≠ .wait) : step s = hostAccessBusy (s.setScript rest) op := by
  rw [step_host (by simp [State.engineTurn, hscript, awaitsEngine, hop])]
  simp [hostTurn, hscript, hbusy]

/-- While `BUSY = 1` every operation of the host but the read of `STATUS`, a `wait` and a reset is refused (R166). -/
theorem hostAccessBusy_refused (s : State) {op : HostOp} (hread : op ≠ .regRead 1) (hwait : op ≠ .wait)
    (hreset : op ≠ .reset) : hostAccessBusy s op = .refused .hostAccessWhileBusy := by
  rw [hostAccessBusy] <;> assumption

/-! ## The host's register port -/

/-- `HostRegRead` by register number (R28). -/
theorem State.hostRegRead_eq (s : State) (n : Nat) :
    s.hostRegRead n = if n = 1 then s.statusWord else if n = 2 then s.errinfo
      else if n = 3 then BitVec.ofNat 32 s.width.toNat else if n = 4 then BitVec.ofNat 32 s.height.toNat
      else if n = 5 then s.mlen else if n = 6 then s.blen else if n = 7 then s.capr else 0 := by
  simp only [State.hostRegRead, BitVec.ofNat_toNat]
  split <;> simp_all

/-- `HostRegWrite` by register number (R28). -/
theorem State.hostRegWrite_eq (s : State) (n : Nat) (v : Word) :
    s.hostRegWrite n v = if n = 0 then s.issue v else if n = 3 then s.setWidth (v.setWidth 16)
      else if n = 4 then s.setHeight (v.setWidth 16) else if n = 5 then s.setMlen v
      else if n = 6 then s.setBlen v else s := by
  simp only [State.hostRegWrite]
  split <;> simp_all

/-- `WIDTH` and `HEIGHT` take the low 16 bits of the value written (R28). -/
theorem ofNat_mod_eq_setWidth (v : Word) : BitVec.ofNat 16 (v.toNat % 2 ^ 16) = v.setWidth 16 := by
  apply BitVec.eq_of_toNat_eq
  simp

/-- Settles O8: while idle the step is `HostRegRead` or `HostRegWrite`, while busy the read of `STATUS` or a refusal. -/
theorem hostRegisterPort : Obligations.HostRegisterPort := by
  intro s n rest
  refine ⟨fun hscript => ⟨fun hallowed => ?_, fun hbusy hn => ?_⟩,
    fun v hscript => ⟨fun hidle => ?_, fun hbusy => ?_⟩⟩
  · have hstep : step s = .next ((s.setScript rest).logRead (s.hostRegRead n)) := by
      cases hbusy : s.busy with
      | false => exact step_of_idle hbusy hscript
      | true =>
        obtain rfl : n = 1 := by simpa [hbusy] using hallowed
        exact step_of_busy hbusy hscript nofun
    rw [hstep, State.hostRegRead_eq]
    rfl
  · rw [step_of_busy hbusy hscript nofun]
    exact hostAccessBusy_refused _ (by simpa using hn) nofun nofun
  · rw [step_of_idle hidle hscript, ofNat_mod_eq_setWidth]
    exact congrArg Host.Outcome.next (State.hostRegWrite_eq _ n v)
  · rw [step_of_busy hbusy hscript nofun]
    exact hostAccessBusy_refused _ nofun nofun nofun

/-! ## Reset -/

/-- The state after a reset in a legal configuration meets the invariant (R37). -/
theorem State.inv_resetOf {cfg : Config} (hcfg : cfg.ok) (epoch : Nat) : (State.resetOf cfg epoch).Inv :=
  ⟨hcfg, State.resetOf_canonical cfg epoch, by simp [State.reportOk, State.resetOf], by simp [State.resetOf]⟩

/-- Settles O57: the test configuration is a legal one. -/
theorem invAfterReset : Obligations.InvAfterReset :=
  ⟨State.inv_resetOf (by decide) 0, fun _ epoch hcfg => State.inv_resetOf hcfg epoch⟩

/-- The reset event is the step whenever it is the next operation, whatever is latched (R160, R161). -/
theorem step_reset {s : State} {rest : List HostOp} (hscript : s.script = .reset :: rest) :
    step s = .next (s.setScript rest).resetEvent := by
  cases hbusy : s.busy with
  | false => exact step_of_idle hbusy hscript
  | true => exact step_of_busy hbusy hscript nofun

/-- After the reset event every register reads 0 (R37). -/
theorem State.resetEvent_hostRegRead (s : State) (n : Nat) : s.resetEvent.hostRegRead n = 0 := by
  have hstatus : s.resetEvent.statusWord = 0 := by simp [State.statusWord, State.busy]
  simp [State.hostRegRead_eq, hstatus]

/-- Settles O12: the next state is the reset event's, which keeps the parameters and what is the host's, and in whose
memories nothing is written. -/
theorem resetEventClears : Obligations.ResetEventClears := by
  intro s rest hscript
  refine ⟨_, step_reset hscript, State.resetEvent_hostRegRead _, rfl, rfl, rfl, fun _ => rfl, fun _ => rfl,
    fun j => ?_, rfl, rfl⟩
  simp [State.readMsg]

/-! ## The registers a command writes

A command's effect empties the latch and keeps the dimensions and what is the host's (R25, R75), one lemma a field;
`effectOf_cfg` is the one for the parameters. -/

@[simp] theorem effectOf_cmdl (i : Instr) (s : State) : (effectOf i s).cmdl = none := by
  cases i <;> simp [effectOf]
@[simp] theorem effectOf_width (i : Instr) (s : State) : (effectOf i s).width = s.width := by
  cases i <;> simp [effectOf]
@[simp] theorem effectOf_height (i : Instr) (s : State) : (effectOf i s).height = s.height := by
  cases i <;> simp [effectOf]
@[simp] theorem effectOf_epoch (i : Instr) (s : State) : (effectOf i s).epoch = s.epoch := by
  cases i <;> simp [effectOf]
@[simp] theorem effectOf_script (i : Instr) (s : State) : (effectOf i s).script = s.script := by
  cases i <;> simp [effectOf]
@[simp] theorem effectOf_reads (i : Instr) (s : State) : (effectOf i s).reads = s.reads := by
  cases i <;> simp [effectOf]

/-- Settles O51: an error raised writes the report alone, and no effect writes a register of the list. -/
theorem noCommandWritesDimensions : Obligations.NoCommandWritesDimensions := by
  intro i s
  obtain ⟨t, ht⟩ := exec_next i s
  refine ⟨t, ht, ?_⟩
  rcases exec_cases ht with ⟨e, info, -, rfl⟩ | ⟨-, rfl⟩ <;> simp [State.busy]

/-- A command other than CAP leaves `CAPR` as it was (R29). -/
theorem effectOf_capr {i : Instr} (hi : i ≠ .cap) (s : State) : (effectOf i s).capr = s.capr := by
  cases i with
  | cap => exact absurd rfl hi
  | nop | pack | unpack | encb | decb | frame | unframe | hide | reveal => simp [effectOf]

/-- A command other than CAP leaves `CAPR` as it was, whether it succeeds or fails (R29). -/
theorem exec_capr {i : Instr} {s t : State} (hi : i ≠ .cap) (ht : exec i s = .next t) : t.capr = s.capr := by
  rcases exec_cases ht with ⟨e, info, -, rfl⟩ | ⟨-, rfl⟩
  · rfl
  · exact effectOf_capr hi s

/-- A command's effect sets `TRUNC` only where it can drop bits or characters (R30). -/
theorem effectOf_trunc {i : Instr} {s : State} (h : (effectOf i s).trunc = true) :
    i ∈ [Instr.encb, .frame, .hide] := by
  cases i with
  | encb | frame | hide => simp
  | nop | cap | pack | unpack | decb | unframe | reveal => simp [effectOf] at h

/-- A command's effect sets `FOUND` only where it looks for the terminator (R30). -/
theorem effectOf_found {i : Instr} {s : State} (h : (effectOf i s).found = true) :
    i ∈ [Instr.unframe, .reveal] := by
  cases i with
  | unframe | reveal => simp
  | nop | cap | pack | unpack | encb | decb | frame | hide => simp [effectOf] at h

/-! ## The registers no command reads -/

/-- `s` with the registers that no command reads, `CAPR`, the flags and the report, taken from `r` (R29, R30). -/
def State.withUnread (s r : State) : State :=
  { s with capr := r.capr, err := r.err, trunc := r.trunc, found := r.found, ecode := r.ecode, errinfo := r.errinfo }

@[simp] theorem State.withUnread_text (s r : State) : (s.withUnread r).text = s.text := rfl

/-- The encoder's scan neither reads nor writes the unread registers. -/
theorem State.encodeFrom_withUnread (s r : State) (k : Nat) (bs : List Bit) :
    (s.withUnread r).encodeFrom k bs = (s.encodeFrom k bs).withUnread r := by
  induction bs generalizing s k with
  | nil => rfl
  | cons b bs ih =>
    exact ih (s.writePix (scanAddr s.cfg k) (setParity (s.readPix (scanAddr s.cfg k)) b)) (k + 1)

/-- ENCB's writes neither read nor write the unread registers (R106). -/
theorem State.encodeBits_withUnread (s r : State) : (s.withUnread r).encodeBits = s.encodeBits.withUnread r :=
  State.encodeFrom_withUnread s r 0 _

/-- A success writes the unread registers but `CAPR` (R75). -/
theorem State.succeed_withUnread (s r : State) (trunc found : Bool) :
    (s.withUnread r).succeed trunc found = (s.succeed trunc found).setCapr r.capr := rfl

/-- UNFRAME's writes read none of the unread registers, and write them but `CAPR` (R124). -/
theorem State.unframeText_withUnread (s r : State) :
    (s.withUnread r).unframeText = s.unframeText.setCapr r.capr := by
  simp only [State.unframeText, State.withUnread_text]
  split <;> rfl

/-- The checks of a command read none of the unread registers. -/
theorem checksOf_withUnread (i : Instr) (s r : State) : checksOf i (s.withUnread r) = checksOf i s := by
  cases i <;> rfl

/-- The effect of a command other than CAP reads none of the unread registers, and writes them but `CAPR`. -/
theorem effectOf_withUnread {i : Instr} (hi : i ≠ .cap) (s r : State) :
    effectOf i (s.withUnread r) = (effectOf i s).setCapr r.capr := by
  cases i with
  | cap => exact absurd rfl hi
  | encb =>
    have hwrites := congrArg (State.succeed · s.bitsDropped false) (s.encodeBits_withUnread r)
    exact hwrites.trans (State.succeed_withUnread _ r _ _)
  | hide =>
    have hwrites := congrArg (State.succeed · s.hideDropped false) (s.frameText.packText.encodeBits_withUnread r)
    exact hwrites.trans (State.succeed_withUnread _ r _ _)
  | unframe => exact s.unframeText_withUnread r
  | reveal => exact s.decodeImage.unpackBits.unframeText_withUnread r
  | nop | pack | unpack | decb | frame => rfl

/-- A command other than CAP does the same whatever stands in the unread registers, and keeps `CAPR`. -/
theorem exec_withUnread {i : Instr} {s t : State} (hi : i ≠ .cap) (ht : exec i s = .next t) (r : State) :
    exec i (s.withUnread r) = .next (t.setCapr r.capr) := by
  rw [exec_eq, checksOf_withUnread, effectOf_withUnread hi]
  rcases exec_cases ht with ⟨e, info, hcheck, rfl⟩ | ⟨hcheck, rfl⟩ <;> rw [hcheck] <;> rfl

/-- CAP leaves the same state whatever stands in the unread registers: it writes them all (R100). -/
theorem exec_cap_withUnread (s r : State) : exec .cap (s.withUnread r) = exec .cap s := rfl

/-- Settles O52: a state with another `CAPR` differs in a register no command reads, and only CAP writes `CAPR`. -/
theorem caprOnlyFromCap : Obligations.CaprOnlyFromCap := by
  intro i s t v ht
  refine ⟨fun hi => ⟨exec_capr hi ht, exec_withUnread hi ht { s with capr := v }⟩, ?_⟩
  rintro rfl
  exact (exec_cap_withUnread s { s with capr := v }).trans ht

/-- A command does the same whatever flags and report stand in the state (R30): it writes them all. -/
theorem exec_withUnread_of_capr {i : Instr} {s t r : State} (ht : exec i s = .next t) (hr : r.capr = s.capr) :
    exec i (s.withUnread r) = .next t := by
  by_cases hi : i = .cap
  · subst hi
    exact (exec_cap_withUnread s r).trans ht
  · rw [exec_withUnread hi ht, hr, ← exec_capr hi ht]
    rfl

/-- Settles O53: a state with another report differs in registers no command reads; which command sets a flag is read
off its effect, and an error raised sets neither `TRUNC` nor `FOUND`. -/
theorem flagsReadByNoCommand : Obligations.FlagsReadByNoCommand := by
  intro i s t ht
  refine ⟨fun err trunc found code info => exec_withUnread_of_capr ht
    (r := { s with err := err, trunc := trunc, found := found, ecode := code, errinfo := info }) rfl, ?_⟩
  rcases exec_cases ht with ⟨e, code, -, rfl⟩ | ⟨-, rfl⟩
  · exact ⟨fun _ => ⟨rfl, rfl⟩, nofun, nofun⟩
  · obtain ⟨_, _, ⟨-, herr, -⟩, -⟩ := effectOf_succeeded i s
    exact ⟨fun h => absurd h (by simp [herr]), effectOf_trunc, effectOf_found⟩

end Sys2Proof.Machine
end

section
/-! PROOF. The memories (20_memory.md): the host's port to them (O9) and which of the host's operations are refused
(O11), the scan of the pixel commands (O46) and what it makes of the geometry (O47) and of the channels above the third
(O48), and the characters that commands write (O50). -/

namespace Sys2Proof.Machine

/-! ## The host's memory port -/

/-- `HostMemRead` has one condition, that the cell exists (R56). -/
theorem hostAccess_memRead (s : State) (sp : Space) (a : Nat) :
    hostAccess s (.memRead sp a) =
      if sp.size s.cfg ≤ a then .refused .cellOutOfRange else .next (s.logRead (s.hostMemRead sp a)) := rfl

/-- `HostMemWrite` looks at the value only where the cell exists (R56). -/
theorem hostAccess_memWrite (s : State) (sp : Space) (a v : Nat) :
    hostAccess s (.memWrite sp a v) =
      if sp.size s.cfg ≤ a then .refused .cellOutOfRange
      else if 2 ^ sp.width s.cfg ≤ v then .refused .valueTooWide
      else .next (s.hostMemWrite sp a v) := rfl

/-- A memory write of the host reaches the memories alone (R56). -/
theorem State.hostMemWrite_eq (s : State) (sp : Space) (a v : Nat) :
    s.hostMemWrite sp a v = { s with
      pix := (s.hostMemWrite sp a v).pix
      bit := (s.hostMemWrite sp a v).bit
      msg := (s.hostMemWrite sp a v).msg } := by
  cases sp <;> rfl

/-- A cell of a legal configuration is at most as wide as the path to the host (R5, R50). -/
theorem Space.width_le {cfg : Config} (hcfg : cfg.ok) (sp : Space) : sp.width cfg ≤ 32 := by
  obtain ⟨-, -, hcpw, -⟩ := hcfg
  cases sp with
  | pix | bit => simp [Space.width]
  | msg => exact hcpw

/-- A cell the host has written reads as written (R56, R62). -/
theorem State.hostMemRead_hostMemWrite {s : State} (hcfg : s.cfg.ok) {sp : Space} (a : Nat) {v : Nat}
    (hv : v < 2 ^ sp.width s.cfg) : ((s.hostMemWrite sp a v).hostMemRead sp a).toNat = v := by
  have hword : v < 2 ^ 32 := Nat.lt_of_lt_of_le hv (Nat.pow_le_pow_right Nat.two_pos (sp.width_le hcfg))
  cases sp with
  | pix =>
    have hcell : v < 2 ^ 8 := hv
    simp [State.hostMemRead, State.hostMemWrite, State.readPix_writePix]
    omega
  | bit =>
    have hread := State.readBit_writeBits (s := s) (i := a) (k := 0) (vs := [BitVec.ofNat 1 v]) Nat.one_pos
    rw [Nat.add_zero] at hread
    have hcell : v < 2 ^ 1 := hv
    simp [State.hostMemRead, State.hostMemWrite, hread]
    omega
  | msg =>
    have hread := State.readMsg_writeMsgs (s := s) (j := a) (k := 0) (vs := [BitVec.ofNat 32 v]) Nat.one_pos
    rw [Nat.add_zero] at hread
    simpa [State.hostMemRead, State.hostMemWrite, hread] using Nat.mod_eq_of_lt hword

/-- Every other cell, of this memory and of the other two, reads as before (R56, R50). -/
theorem State.hostMemRead_hostMemWrite_other (s : State) {sp sp' : Space} {a b : Nat} (v : Nat)
    (h : sp' ≠ sp ∨ b ≠ a) : (s.hostMemWrite sp a v).hostMemRead sp' b = s.hostMemRead sp' b := by
  by_cases hsp : sp' = sp
  · subst hsp
    have hb : b ≠ a := h.resolve_left (not_not_intro rfl)
    have hout : b < a ∨ a + 1 ≤ b := by omega
    cases sp' with
    | pix => simp [State.hostMemRead, State.hostMemWrite, State.readPix_writePix, hb]
    | bit => simp [State.hostMemRead, State.hostMemWrite, State.readBit_writeBits_other (vs := [BitVec.ofNat 1 v]) hout]
    | msg => exact State.readMsg_writeMsgs_other hout
  · match sp, sp', hsp with
    | .pix, .bit, _ | .pix, .msg, _ | .bit, .pix, _ | .bit, .msg, _ | .msg, .pix, _ | .msg, .bit, _ => rfl
    | .pix, .pix, hsp | .bit, .bit, hsp | .msg, .msg, hsp => exact absurd rfl hsp

/-- Settles O9: while idle the step is the access itself, whose domain is looked at first. -/
theorem hostMemoryAccess : Obligations.HostMemoryAccess := by
  intro s sp a rest hcfg
  refine ⟨fun hscript => ⟨fun hidle ha => ?_, fun hidle ha => ?_, fun hbusy => ?_⟩,
    fun v hscript => ⟨fun hidle ha hv => ?_, fun hidle ha => ?_, fun hidle ha hv => ?_, fun hbusy => ?_⟩⟩
  · rw [step_of_idle hidle hscript, hostAccess_memRead]
    exact if_neg (Nat.not_le.mpr ha)
  · rw [step_of_idle hidle hscript, hostAccess_memRead]
    exact if_pos ha
  · rw [step_of_busy hbusy hscript nofun]
    exact hostAccessBusy_refused _ nofun nofun nofun
  · refine ⟨(s.setScript rest).hostMemWrite sp a v, ?_, State.hostMemWrite_eq _ sp a v,
      State.hostMemRead_hostMemWrite (s := s.setScript rest) hcfg a hv, fun sp' b hother => ?_⟩
    · rw [step_of_idle hidle hscript, hostAccess_memWrite]
      exact (if_neg (Nat.not_le.mpr ha)).trans (if_neg (Nat.not_le.mpr hv))
    · exact State.hostMemRead_hostMemWrite_other (s.setScript rest) v hother
  · rw [step_of_idle hidle hscript, hostAccess_memWrite]
    exact if_pos ha
  · rw [step_of_idle hidle hscript, hostAccess_memWrite]
    exact (if_neg (Nat.not_le.mpr ha)).trans (if_pos hv)
  · rw [step_of_busy hbusy hscript nofun]
    exact hostAccessBusy_refused _ nofun nofun nofun

/-! ## The host's operations that are refused -/

/-- The completion of a word always answers a next state (R75, R146). -/
theorem completeWord_next (c : Word) (s : State) : ∃ t, completeWord c s = .next t := by
  simp only [completeWord]
  split
  · exact exec_next _ s
  · exact ⟨_, rfl⟩

/-- The outcome is a next state where `ok` holds and a refusal where it does not. -/
def Answers (ok : Prop) (r : Result) : Prop :=
  (ok ∧ ∃ t, r = .next t) ∨ (¬ok ∧ ∃ why, r = .refused why)

/-- What has an answer is no fault, and is a refusal exactly where `ok` fails. -/
theorem Answers.refused_iff {ok : Prop} {r : Result} (h : Answers ok r) :
    (∀ f, r ≠ .fault f) ∧ ((∃ why, r = .refused why) ↔ ¬ok) := by
  rcases h with ⟨hok, t, rfl⟩ | ⟨hok, why, rfl⟩
  · exact ⟨nofun, ⟨nofun, fun h => absurd hok h⟩⟩
  · exact ⟨nofun, fun _ => hok, fun _ => ⟨why, rfl⟩⟩

/-- While `BUSY = 0` an operation of the host is refused exactly outside the domain of a memory access (R56). -/
theorem hostAccess_answers {s : State} (hidle : s.busy = false) (op : HostOp) :
    Answers (op.allowed s) (hostAccess s op) := by
  cases op with
  | regRead n => exact .inl ⟨by simp [hidle], _, rfl⟩
  | regWrite n v => exact .inl ⟨hidle, _, rfl⟩
  | wait | reset => exact .inl ⟨trivial, _, rfl⟩
  | memRead sp a =>
    rw [hostAccess_memRead]
    split
    case isTrue ha => exact .inr ⟨fun hok => by omega, _, rfl⟩
    case isFalse ha => exact .inl ⟨⟨hidle, by omega⟩, _, rfl⟩
  | memWrite sp a v =>
    rw [hostAccess_memWrite]
    split
    case isTrue ha => exact .inr ⟨fun hok => by omega, _, rfl⟩
    case isFalse ha =>
      split
      case isTrue hv => exact .inr ⟨fun hok => by omega, _, rfl⟩
      case isFalse hv => exact .inl ⟨⟨hidle, by omega, by omega⟩, _, rfl⟩

/-- While `BUSY = 1` only the read of `STATUS`, a `wait` and a reset are answered with a next state (R161, R166). -/
theorem hostAccessBusy_answers {s : State} (hbusy : s.busy = true) (op : HostOp) :
    Answers (op.allowed s) (hostAccessBusy s op) := by
  cases op with
  | regRead n =>
    by_cases hn : n = 1
    · subst hn
      exact .inl ⟨fun _ => rfl, _, rfl⟩
    · exact .inr ⟨fun hok => hn (hok hbusy), _, hostAccessBusy_refused s (by simpa using hn) nofun nofun⟩
  | regWrite | memRead | memWrite => exact .inr ⟨by simp [hbusy], _, rfl⟩
  | wait | reset => exact .inl ⟨trivial, _, rfl⟩

/-- Whether an operation is allowed does not depend on what the host does after it. -/
theorem HostOp.allowed_setScript (op : HostOp) (s : State) (rest : List HostOp) :
    op.allowed (s.setScript rest) ↔ op.allowed s := by
  cases op <;> exact Iff.rfl

/-- It is the host's turn and its next operation is not allowed. -/
abbrev State.hostErrs (s : State) : Prop :=
  s.engineTurn = false ∧ ∃ op rest, s.script = op :: rest ∧ ¬HostOp.allowed op s

/-- A step is refused exactly when the host errs: the engine's step and the idle one always have a next
state (R146, R153). -/
theorem step_answers (s : State) : Answers (¬s.hostErrs) (step s) := by
  cases hturn : s.engineTurn with
  | true =>
    obtain ⟨c, hc⟩ := engineTurn_latched hturn
    rw [step_engine hturn hc]
    exact .inl ⟨fun ⟨hhost, _⟩ => by simp [hturn] at hhost, completeWord_next c s⟩
  | false =>
    cases hscript : s.script with
    | nil =>
      rw [step_host hturn, hostTurn, hscript]
      exact .inl ⟨fun ⟨_, op, rest, hop, _⟩ => by simp [hscript] at hop, s, rfl⟩
    | cons op rest =>
      have hallowed : ¬s.hostErrs ↔ op.allowed (s.setScript rest) := by
        simp [hturn, hscript, HostOp.allowed_setScript]
      rw [hallowed]
      cases hbusy : s.busy with
      | false =>
        rw [step_of_idle hbusy hscript]
        exact hostAccess_answers (s := s.setScript rest) hbusy op
      | true =>
        have hwait : op ≠ .wait := by
          rintro rfl
          simp [State.engineTurn, hbusy, hscript, awaitsEngine] at hturn
        rw [step_of_busy hbusy hscript hwait]
        exact hostAccessBusy_answers (s := s.setScript rest) hbusy op

/-- Settles O11: a step answers a next state unless the host errs, and then a refusal. -/
theorem refusedExactlyWhenHostErrs : Obligations.RefusedExactlyWhenHostErrs := by
  intro s
  have h := (step_answers s).refused_iff
  rwa [not_not] at h

/-! ## The scan (R54) -/

/-- The cell of a scan index is that of a channel of the pixel with that place in row-major order (R51, R54). -/
theorem scanAddr_eq_pixelCell (cfg : Config) (w k : Nat) :
    scanAddr cfg k = pixelCell cfg w (k / 3 % w) (k / 3 / w) (k % 3) := by
  rw [scanAddr, pixelCell, Nat.div_add_mod']

/-- Settles O46: a quotient and a remainder by the width give back the place of the pixel. -/
theorem scanIsRowMajor : Obligations.ScanIsRowMajor := by
  refine ⟨fun cfg w h k hw hk => ⟨Nat.mod_lt _ hw, ?_, Nat.mod_lt _ (by decide), scanAddr_eq_pixelCell cfg w k, rfl⟩,
    fun cfg k hnch => ?_⟩
  · exact Nat.div_lt_of_lt_mul (by omega)
  · rw [scanAddr, hnch, Nat.div_add_mod']

/-! ## What a success leaves -/

/-- A command that ends without an error passed its checks and had its effect (R75, R146). -/
theorem exec_succeeds {i : Instr} {s t : State} (ht : exec i s = .next t) (herr : t.err = false) :
    checksOf i s = none ∧ t = effectOf i s := by
  rcases exec_cases ht with ⟨e, info, -, rfl⟩ | h
  · simp at herr
  · exact h

/-- A command keeps the parameters, whether it succeeds or fails. -/
theorem exec_cfg {i : Instr} {s t : State} (ht : exec i s = .next t) : t.cfg = s.cfg := by
  rcases exec_cases ht with ⟨e, info, -, rfl⟩ | ⟨-, rfl⟩ <;> simp

/-- ENCB gives the channel of every scan index that has a bit the parity of that bit (R106). -/
theorem State.encodeBits_readPix {s : State} (hnch : 3 ≤ s.cfg.nch) {k : Nat} (hk : k < min s.blen.toNat s.nc) :
    s.encodeBits.readPix (scanAddr s.cfg k) = setParity (s.readPix (scanAddr s.cfg k)) (s.readBit k) := by
  have hscan := State.readPix_encodeFrom hnch (k := 0) (i := k) (bs := s.bitsUpTo (min s.blen.toNat s.nc))
    (by rwa [State.bitsUpTo_length])
  rwa [Nat.zero_add, State.bitsUpTo_getElem] at hscan

/-- DECB gives every scan index below `NC` the parity of its channel (R116). -/
theorem State.decodeImage_readBit {s : State} {k : Nat} (hk : k < s.nc) :
    s.decodeImage.readBit k = BitVec.ofNat 1 ((s.readPix (scanAddr s.cfg k)).toNat % 2) := by
  have hwritten := State.readBit_writeBits (s := s) (i := 0) (k := k) (vs := s.imageBits)
    (by rwa [State.imageBits_length])
  rw [Nat.zero_add, State.imageBits_getElem] at hwritten
  exact hwritten

/-- `SetParity` sets the parity (R105). -/
theorem setParity_parity (v : Channel) (b : Bit) : (setParity v b).toNat % 2 = b.toNat := by
  rcases BitVec.eq_zero_or_eq_one b with rfl | rfl <;>
    rcases Nat.mod_two_eq_zero_or_one v.toNat with hpar | hpar
  · simp [setParity, hpar]
  · have hpos : (v - 1).toNat = v.toNat - 1 := by bv_omega
    simp [setParity, hpar]
    omega
  · have hsucc : (v + 1).toNat = v.toNat + 1 := by bv_omega
    simp [setParity, hpar]
    omega
  · simp [setParity, hpar]

/-! ## The geometry (R55) -/

/-- `s` with an image of width `w` and height `h`. -/
def State.withDims (s : State) (w h : Dim) : State := { s with width := w, height := h }

@[simp] theorem State.withDims_text (s : State) (w h : Dim) : (s.withDims w h).text = s.text := rfl

/-- The encoder's scan neither reads nor writes the dimensions (R55). -/
theorem State.encodeFrom_withDims (s : State) (w h : Dim) (k : Nat) (bs : List Bit) :
    (s.withDims w h).encodeFrom k bs = (s.encodeFrom k bs).withDims w h := by
  induction bs generalizing s k with
  | nil => rfl
  | cons b bs ih =>
    exact ih (s.writePix (scanAddr s.cfg k) (setParity (s.readPix (scanAddr s.cfg k)) b)) (k + 1)

/-- UNFRAME neither reads nor writes the dimensions (R124). -/
theorem State.unframeText_withDims (s : State) (w h : Dim) :
    (s.withDims w h).unframeText = s.unframeText.withDims w h := by
  simp only [State.unframeText, State.withDims_text]
  split <;> rfl

section
variable {s : State} {w h : Dim} (hprod : w.toNat * h.toNat = s.np)
include hprod

/-- Dimensions of the same product keep the derived quantities of R32, and with the capacity the number of characters
FRAME keeps (R121). -/
theorem State.withDims_np : (s.withDims w h).np = s.np := hprod

theorem State.withDims_nc : (s.withDims w h).nc = s.nc := congrArg (3 * ·) (State.withDims_np hprod)

theorem State.withDims_capv : (s.withDims w h).capv = s.capv := congrArg (· / 8) (State.withDims_nc hprod)

theorem State.withDims_keep : (s.withDims w h).keep = s.keep :=
  congrArg (keepLen s.mlen.toNat) (State.withDims_capv hprod)

/-- So they keep the values `TRUNC` takes (R106, R121, R130). -/
theorem State.withDims_charsDropped : (s.withDims w h).charsDropped = s.charsDropped := by
  rw [State.charsDropped, State.withDims_keep hprod]
  rfl

theorem State.withDims_bitsDropped : (s.withDims w h).bitsDropped = s.bitsDropped := by
  rw [State.bitsDropped, State.withDims_nc hprod]
  rfl

theorem State.withDims_hideDropped : (s.withDims w h).hideDropped = s.hideDropped := by
  rw [State.hideDropped, State.withDims_charsDropped hprod, State.withDims_keep hprod, State.withDims_nc hprod]
  rfl

/-- FRAME needs the dimensions only for the capacity (R121). -/
theorem State.frameText_withDims : (s.withDims w h).frameText = s.frameText.withDims w h := by
  rw [State.frameText, State.withDims_keep hprod]
  rfl

/-- ENCB needs the dimensions only for the number of channels (R106). -/
theorem State.encodeBits_withDims : (s.withDims w h).encodeBits = s.encodeBits.withDims w h := by
  rw [State.encodeBits, State.withDims_nc hprod]
  exact State.encodeFrom_withDims s w h 0 _

/-- DECB needs the dimensions only for the number of channels (R116). -/
theorem State.decodeImage_withDims : (s.withDims w h).decodeImage = s.decodeImage.withDims w h := by
  rw [State.decodeImage, State.imageBits, State.withDims_nc hprod]
  rfl

/-- HIDE does what FRAME, PACK and ENCB do, and PACK needs no dimensions (R130). -/
theorem State.hideText_withDims : (s.withDims w h).hideText = s.hideText.withDims w h := by
  have hpacked : w.toNat * h.toNat = s.frameText.packText.np := by simpa using hprod
  rw [State.hideText, State.frameText_withDims hprod]
  exact State.encodeBits_withDims hpacked

/-- The checks of a command need the dimensions only for the derived quantities (R143, R144, R147). -/
theorem checksOf_withDims (i : Instr) : checksOf i (s.withDims w h) = checksOf i s := by
  have hgeom : (s.withDims w h).geomCheck = s.geomCheck := by
    rw [State.geomCheck, State.withDims_np hprod]
    rfl
  cases i with
  | nop | cap | pack | unpack | unframe => rfl
  | encb => simp only [checksOf, State.encbCheck, hgeom]; rfl
  | decb => simp only [checksOf, State.decbCheck, hgeom, State.withDims_nc hprod]; rfl
  | frame => simp only [checksOf, State.frameCheck, State.withDims_keep hprod]; rfl
  | hide => simp only [checksOf, State.hideCheck, hgeom, State.withDims_keep hprod]; rfl
  | reveal =>
    simp only [checksOf, State.revealCheck, hgeom, State.withDims_capv hprod, State.withDims_nc hprod]; rfl

/-- The effect of a command needs the dimensions only for the derived quantities, and keeps them. -/
theorem effectOf_withDims (i : Instr) : effectOf i (s.withDims w h) = (effectOf i s).withDims w h := by
  cases i with
  | nop | pack | unpack => rfl
  | cap => rw [effectOf, State.withDims_capv hprod]; rfl
  | encb => rw [effectOf, State.encodeBits_withDims hprod, State.withDims_bitsDropped hprod]; rfl
  | decb => rw [effectOf, State.decodeImage_withDims hprod]; rfl
  | frame => rw [effectOf, State.frameText_withDims hprod, State.withDims_charsDropped hprod]; rfl
  | unframe => exact s.unframeText_withDims w h
  | hide => rw [effectOf, State.hideText_withDims hprod, State.withDims_hideDropped hprod]; rfl
  | reveal =>
    rw [effectOf, State.decodeImage_withDims hprod]
    exact s.decodeImage.unpackBits.unframeText_withDims w h

/-- Every command does the same under dimensions of the same product (R55). -/
theorem exec_withDims {i : Instr} {t : State} (ht : exec i s = .next t) :
    exec i (s.withDims w h) = .next (t.withDims w h) := by
  rw [exec_eq, checksOf_withDims hprod, effectOf_withDims hprod]
  rcases exec_cases ht with ⟨e, info, hcheck, rfl⟩ | ⟨hcheck, rfl⟩ <;> rw [hcheck] <;> rfl

end

/-- Settles O47: the dimensions are read through `NP` alone, and the cell of a scan index is the same under every
geometry. -/
theorem geometryEntersAsProduct : Obligations.GeometryEntersAsProduct := by
  intro s w h
  refine ⟨fun hprod i t ht => exec_withDims hprod ht, fun t u hcfg ht herr hu huerr k hk hk' => ?_⟩
  have hencoded : t.readPix (scanAddr t.cfg k) = setParity (s.readPix (scanAddr s.cfg k)) (s.readBit k) := by
    rw [exec_cfg ht, (exec_succeeds ht herr).2]
    exact State.encodeBits_readPix hcfg.1 hk
  have hdecoded : u.readBit k = BitVec.ofNat 1 ((t.readPix (scanAddr t.cfg k)).toNat % 2) := by
    rw [(exec_succeeds hu huerr).2]
    exact State.decodeImage_readBit (s := t.withDims w h) hk'
  rw [hdecoded, hencoded, setParity_parity, BitVec.ofNat_toNat, BitVec.setWidth_eq]

/-! ## The channels above the third (R57) -/

/-- `s` with the pixel memory `m`. -/
def State.withPix (s : State) (m : Memory 8) : State := { s with pix := m }

@[simp] theorem State.withPix_text (s : State) (m : Memory 8) : (s.withPix m).text = s.text := rfl
@[simp] theorem State.withPix_readPix (s : State) (m : Memory 8) (a : Nat) :
    (s.withPix m).readPix a = (m.get? a).getD (Config.freePix s.epoch a) := rfl

/-- Every cell of a channel with number 0, 1 or 2 reads the same in both states. -/
def State.sameLower (cfg : Config) (s t : State) : Prop := ∀ a, ¬upperCell cfg a → t.readPix a = s.readPix a

/-- The cell of a scan index is one of the first three channels of its pixel (R54). -/
theorem scanAddr_not_upperCell {cfg : Config} (hnch : 3 ≤ cfg.nch) (k : Nat) : ¬upperCell cfg (scanAddr cfg k) := by
  have hchannel : k % 3 < 3 := Nat.mod_lt _ (by decide)
  rw [scanAddr, upperCell, Nat.mul_add_mod_self_right, Nat.mod_eq_of_lt (by omega)]
  omega

/-- ENCB leaves every cell that is of no scan index as it was (R106). -/
theorem State.encodeBits_readPix_other {s : State} {a : Nat} (ha : ∀ k, a ≠ scanAddr s.cfg k) :
    s.encodeBits.readPix a = s.readPix a :=
  State.readPix_encodeFrom_other fun k _ _ => ha k

/-- Every command leaves every cell that is of no scan index as it was. -/
theorem effectOf_readPix_other (i : Instr) {s : State} {a : Nat} (ha : ∀ k, a ≠ scanAddr s.cfg k) :
    (effectOf i s).readPix a = s.readPix a := by
  cases i with
  | encb => exact State.encodeBits_readPix_other ha
  | hide =>
    have hscan := State.encodeBits_readPix_other (s := s.frameText.packText) (a := a) (by simpa using ha)
    simpa [effectOf, State.hideText] using hscan
  | nop | cap | pack | unpack | decb | frame | unframe | reveal => simp [effectOf]

/-- The encoder's scan writes a lower channel as a function of that channel alone (R105). -/
theorem State.sameLower_encodeFrom {cfg : Config} {s t : State} (hnch : 3 ≤ cfg.nch) (hs : s.cfg = cfg)
    (ht : t.cfg = cfg) (h : State.sameLower cfg s t) (k : Nat) (bs : List Bit) :
    State.sameLower cfg (s.encodeFrom k bs) (t.encodeFrom k bs) := by
  induction bs generalizing s t k with
  | nil => exact h
  | cons b bs ih =>
    simp only [State.encodeFrom]
    refine ih (s := s.writePix _ _) (t := t.writePix _ _) hs ht (fun a ha => ?_) (k + 1)
    rw [State.readPix_writePix, State.readPix_writePix, hs, ht, h _ (scanAddr_not_upperCell hnch k), h a ha]

section
variable {s : State} {m : Memory 8} (hnch : 3 ≤ s.cfg.nch) (h : State.sameLower s.cfg s (s.withPix m))
include hnch h

/-- What ENCB writes beside another pixel memory differs in the upper channels alone (R57). -/
theorem State.encodeBits_withPix : ∃ m', (s.withPix m).encodeBits = s.encodeBits.withPix m' ∧
    State.sameLower s.cfg s.encodeBits (s.encodeBits.withPix m') := by
  have hwrites : (s.withPix m).encodeBits = s.encodeBits.withPix (s.withPix m).encodeBits.pix := by
    rw [State.encodeBits_eq (s.withPix m), State.encodeBits_eq s]
    rfl
  refine ⟨_, hwrites, ?_⟩
  rw [← hwrites]
  exact State.sameLower_encodeFrom (t := s.withPix m) hnch rfl rfl h 0 _

/-- DECB reads the lower channels alone (R116). -/
theorem State.decodeImage_withPix : (s.withPix m).decodeImage = s.decodeImage.withPix m := by
  have hbits : (s.withPix m).imageBits = s.imageBits :=
    List.map_congr_left fun k _ => congrArg (fun v : Channel => BitVec.ofNat 1 (v.toNat % 2))
      (h _ (scanAddr_not_upperCell hnch k))
  rw [State.decodeImage, hbits]
  rfl

end

/-- UNFRAME neither reads nor writes a channel (R124). -/
theorem State.unframeText_withPix (s : State) (m : Memory 8) :
    (s.withPix m).unframeText = s.unframeText.withPix m := by
  simp only [State.unframeText, State.withPix_text]
  split <;> rfl

/-- No check reads a channel. -/
theorem checksOf_withPix (i : Instr) (s : State) (m : Memory 8) : checksOf i (s.withPix m) = checksOf i s := by
  cases i <;> rfl

/-- The effect of a command beside another pixel memory differs in the upper channels alone (R57). -/
theorem effectOf_withPix (i : Instr) {s : State} {m : Memory 8} (hnch : 3 ≤ s.cfg.nch)
    (h : State.sameLower s.cfg s (s.withPix m)) : ∃ m', effectOf i (s.withPix m) = (effectOf i s).withPix m' ∧
      State.sameLower s.cfg (effectOf i s) ((effectOf i s).withPix m') := by
  cases i with
  | nop | cap | pack | unpack | frame => exact ⟨m, rfl, h⟩
  | unframe => exact ⟨m, s.unframeText_withPix m, by simpa [State.sameLower, effectOf] using h⟩
  | decb => exact ⟨m, congrArg (State.succeed · false false) (State.decodeImage_withPix hnch h), h⟩
  | encb =>
    obtain ⟨m', hwrites, hlower⟩ := State.encodeBits_withPix hnch h
    exact ⟨m', congrArg (State.succeed · s.bitsDropped false) hwrites, hlower⟩
  | hide =>
    obtain ⟨m', hwrites, hlower⟩ := State.encodeBits_withPix (s := s.frameText.packText) (m := m)
      (by simpa using hnch) (by simpa [State.sameLower] using h)
    exact ⟨m', congrArg (State.succeed · s.hideDropped false) hwrites,
      by simpa [State.sameLower, effectOf, State.hideText] using hlower⟩
  | reveal =>
    refine ⟨m, ?_, by simpa [State.sameLower, effectOf] using h⟩
    rw [effectOf, State.decodeImage_withPix hnch h]
    exact s.decodeImage.unpackBits.unframeText_withPix m

/-- Settles O48: no scan index has the cell of an upper channel, so the encoder writes none and no command reads one. -/
theorem upperChannelsUntouched : Obligations.UpperChannelsUntouched := by
  intro i s t hcfg ht
  refine ⟨fun a ha => ?_, fun m hm => ?_⟩
  · rcases exec_cases ht with ⟨e, info, -, rfl⟩ | ⟨-, rfl⟩
    · rfl
    · exact effectOf_readPix_other i fun k hk => scanAddr_not_upperCell hcfg.1 k (hk ▸ ha)
  · obtain ⟨m', heffect, hlower⟩ := effectOf_withPix i hcfg.1 hm
    have hexec := exec_eq i (s.withPix m)
    rw [checksOf_withPix] at hexec
    rcases exec_cases ht with ⟨e, info, hcheck, rfl⟩ | ⟨hcheck, rfl⟩
    · rw [hcheck] at hexec
      exact ⟨m, hexec, hm⟩
    · rw [hcheck, heffect] at hexec
      exact ⟨m', hexec, hlower⟩

/-! ## The characters written (R59) -/

/-- A run of characters below 256 leaves every cell as it was or with a value below 256. -/
theorem State.readMsg_writeMsgs_lt (s : State) (j b : Nat) {vs : List CodePoint} (hvs : ∀ c ∈ vs, c.toNat < 256) :
    (s.writeMsgs j vs).readMsg b = s.readMsg b ∨ ((s.writeMsgs j vs).readMsg b).toNat < 256 := by
  by_cases hin : j ≤ b ∧ b < j + vs.length
  · obtain ⟨k, rfl⟩ := Nat.exists_eq_add_of_le hin.1
    have hk : k < vs.length := by omega
    rw [State.readMsg_writeMsgs hk]
    exact .inr (hvs _ (List.getElem_mem hk))
  · exact .inl (State.readMsg_writeMsgs_other (by omega))

/-- UNPACK writes characters of eight bits (R92, R93). -/
theorem State.unpackBits_readMsg_lt (s : State) (j : Nat) :
    s.unpackBits.readMsg j = s.readMsg j ∨ (s.unpackBits.readMsg j).toNat < 256 :=
  State.readMsg_writeMsgs_lt s 0 j (bitsToText_lt _)

/-- FRAME writes the terminator (R120, R121). -/
theorem State.frameText_readMsg_lt (s : State) (j : Nat) :
    s.frameText.readMsg j = s.readMsg j ∨ (s.frameText.readMsg j).toNat < 256 :=
  State.readMsg_writeMsgs_lt s s.keep j terminator_lt

/-- Settles O50: MSG is written by UNPACK and FRAME alone, also inside REVEAL and HIDE. -/
theorem writtenCharactersBelow256 : Obligations.WrittenCharactersBelow256 := by
  intro i s t j ht
  rcases exec_cases ht with ⟨e, info, -, rfl⟩ | ⟨-, rfl⟩
  · exact .inl rfl
  · cases i with
    | nop | cap | pack | encb | decb | unframe => left; simp [effectOf]
    | unpack => exact s.unpackBits_readMsg_lt j
    | frame => exact s.frameText_readMsg_lt j
    | hide => simpa [effectOf, State.hideText_readMsg] using s.frameText_readMsg_lt j
    | reveal => simpa [effectOf] using s.decodeImage.unpackBits_readMsg_lt j

end Sys2Proof.Machine
end

section
/-! PROOF. The encoding (30_encoding.md): a word decodes to a command exactly when it is that command's word (O1, O2), the
engine's step on a command's word (O4) and on an illegal one (O3), the issue of a word (O5), and the three steps of a
pseudo-statement (O56). -/

namespace Sys2Proof

/-! ## The decoder inverts the encoder -/

/-- The word of every command has the format of R70. -/
theorem encode_format (i : Instr) : Laws.CommandFormat.Statement i := by
  cases i with
  | nop => exact Laws.CommandFormat.nop
  | cap => exact Laws.CommandFormat.cap
  | pack => exact Laws.CommandFormat.pack
  | unpack => exact Laws.CommandFormat.unpack
  | encb => exact Laws.CommandFormat.encb
  | decb => exact Laws.CommandFormat.decb
  | frame => exact Laws.CommandFormat.frame
  | unframe => exact Laws.CommandFormat.unframe
  | hide => exact Laws.CommandFormat.hide
  | reveal => exact Laws.CommandFormat.reveal

/-- The decoder reads a command back from its word (R70, R72). -/
theorem decode_encode (i : Instr) : decode (encode i) = .instr i := by
  obtain ⟨-, -, hrsv, hop⟩ := encode_format i
  simp [decode, hrsv, hop]

/-- A word is its field `RSV` above its field `OP` (R70). -/
theorem rsvField_append_opField (c : Word) : rsvField c ++ opField c = c := by
  rw [rsvField, opField, BitVec.extractLsb'_append_extractLsb'_eq_extractLsb' (show 4 = 0 + 4 from rfl)]
  exact BitVec.extractLsb'_eq_self

/-- An operation number that names a command is that command's own (R72). -/
theorem eq_opOf_of_instrOfOp {op : BitVec 4} {i : Instr} (h : instrOfOp op = some i) : op = opOf i := by
  simp only [instrOfOp] at h
  split at h <;> cases h
  all_goals exact BitVec.eq_of_toNat_eq ‹_›

/-- A word that decodes to a command has `RSV = 0` and an `OP` that names the command (R72, R73). -/
theorem fields_of_decode {c : Word} {i : Instr} (h : decode c = .instr i) :
    rsvField c = 0 ∧ instrOfOp (opField c) = some i := by
  simp only [decode] at h
  split at h
  · cases h
  · rename_i hrsv
    split at h
    · rename_i hop
      obtain rfl := Decoded.instr.inj h
      exact ⟨not_not.mp hrsv, hop⟩
    · cases h

/-- A word decodes to a command exactly when it is the command's word (R72). -/
theorem decode_eq_instr_iff {c : Word} {i : Instr} : decode c = .instr i ↔ c = encode i := by
  constructor
  · intro h
    obtain ⟨hrsv, hop⟩ := fields_of_decode h
    rw [← rsvField_append_opField c, hrsv, eq_opOf_of_instrOfOp hop]
    rfl
  · rintro rfl
    exact decode_encode i

/-- A word that decodes to a command is legal (R73). -/
theorem legalWord_of_decode {c : Word} {i : Instr} (h : decode c = .instr i) : legalWord c := by
  obtain rfl := decode_eq_instr_iff.mp h
  obtain ⟨-, hlegal, -, -⟩ := encode_format i
  exact hlegal

/-- Settles O1: a word decodes to a command exactly when the encoder gives it, and the rows of the table are the encoder's
ten words. -/
theorem commandWordsAreTheTen : Obligations.CommandWordsAreTheTen := by
  intro c i
  rw [decode_eq_instr_iff]
  cases i <;> simp [encode, opOf]

/-- Settles O2: the three words are those of the encoder. -/
theorem decodeOfEncode : Obligations.DecodeOfEncode :=
  ⟨fun i _ => decode_encode i, decode_encode .cap, decode_encode .frame, decode_encode .reveal⟩

namespace Machine

/-! ## The completion of the latched word -/

/-- The engine's step on a word that decodes to a command is the command (R75). -/
theorem step_of_instr {s : State} {c : Word} {i : Instr} (hturn : s.engineTurn = true) (hc : s.cmdl = some c)
    (hi : decode c = .instr i) : step s = exec i s := by
  rw [step_engine hturn hc, completeWord, hi]

/-- The engine's step on an illegal word raises `IllCmd` with the word (R73, R141). -/
theorem step_of_illegal {s : State} {c : Word} (hturn : s.engineTurn = true) (hc : s.cmdl = some c)
    (hillegal : ¬legalWord c) : step s = .next (s.raise .illCmd c) := by
  rw [step_engine hturn hc, completeWord]
  cases hdecode : decode c with
  | instr i => exact absurd (legalWord_of_decode hdecode) hillegal
  | illegal why => rfl

/-- Settles O3: the words of the two clauses are the illegal ones. -/
theorem illegalWordReportsIllCmd : Obligations.IllegalWordReportsIllCmd := by
  intro s c hturn hc hfield
  have hillegal : ¬legalWord c := by omega
  exact step_of_illegal hturn hc hillegal

/-- Settles O4: whatever the command, its completion is looked up from the latched word alone. -/
theorem stepRunsTheLatchedCommand : Obligations.StepRunsTheLatchedCommand :=
  fun _ _ _ => step_of_instr

/-! ## Issue and completion -/

/-- While `BUSY = 0` the write of `CMD` issues the word (R74). -/
theorem step_issue {s : State} {c : Word} {rest : List HostOp} (hidle : s.busy = false)
    (hscript : s.script = .regWrite 0 c :: rest) : step s = .next ((s.setScript rest).issue c) :=
  step_of_idle hidle hscript

/-- Settles O5: while busy the write is an access the host may not make (R165, R166). -/
theorem issueLatchesTheWord : Obligations.IssueLatchesTheWord := by
  intro s c rest hscript
  refine ⟨fun hidle => ⟨_, step_issue hidle hscript, rfl, rfl⟩, fun hbusy => ?_⟩
  rw [step_of_busy hbusy hscript nofun]
  exact hostAccessBusy_refused _ nofun nofun nofun

/-- While `BUSY = 0` a `wait` of the host is over at once (R78). -/
theorem step_wait {s : State} {rest : List HostOp} (hidle : s.busy = false) (hscript : s.script = .wait :: rest) :
    step s = .next (s.setScript rest) :=
  step_of_idle hidle hscript

/-- Settles O56: the first step issues the word, the second completes it while the host waits, and the third ends the
`wait`, which the completion has left pending. -/
theorem pseudoStatementRunsTheCommand : Obligations.PseudoStatementRunsTheCommand := by
  intro s i rest hidle hscript
  obtain ⟨t, ht, htidle, -, -, -, -, htscript, -⟩ :=
    noCommandWritesDimensions i ((s.setScript (.wait :: rest)).issue (encode i))
  have hcomplete : step ((s.setScript (.wait :: rest)).issue (encode i)) = .next t :=
    (step_of_instr rfl rfl (decode_encode i)).trans ht
  refine ⟨t, ht, htidle, ?_⟩
  calc core.run 3 s
    _ = core.run 2 ((s.setScript (.wait :: rest)).issue (encode i)) := run_step 2 _ _ (step_issue hidle hscript)
    _ = core.run 1 t := run_step 1 _ _ hcomplete
    _ = core.run 0 (t.setScript rest) := run_step 0 _ _ (step_wait htidle htscript)

end Machine

end Sys2Proof
end

section
/-! PROOF. The bit codec (40_bitcodec.md): the layout of `TextToBits` (O28) and the values of `BitsToText` (O29), the four
laws of the conversion (O30), PACK (O16) and UNPACK (O17) whole, and the one after the other (O34). -/

namespace Sys2Proof.Machine

/-! ## The layout of `TextToBits` -/

/-- Bit `j` of `bits8(c)` (R90). -/
theorem bits8_getElem? (c : CodePoint) {j : Nat} (hj : j < 8) : (bits8 c)[j]? = some (charBit c j) := by
  simp [bits8, hj]

/-- Bit `8k+j` of a text is bit `j` of its character `k` (R90). -/
theorem textToBits_getElem? {t : List CodePoint} {k j : Nat} (hk : k < t.length) (hj : j < 8) :
    (textToBits t)[8 * k + j]? = some (charBit t[k] j) := by
  induction t generalizing k with
  | nil => simp at hk
  | cons c t ih =>
    cases k with
    | zero =>
      have hfirst : 8 * 0 + j < (bits8 c).length := by simpa using hj
      rw [textToBits_cons, List.getElem?_append_left hfirst, Nat.mul_zero, Nat.zero_add, bits8_getElem? c hj]
      rfl
    | succ k =>
      have hrest : 8 * (k + 1) + j = (bits8 c).length + (8 * k + j) := by
        rw [bits8_length]
        omega
      rw [textToBits_cons, hrest, List.getElem?_append_right (Nat.le_add_right _ _), Nat.add_sub_cancel_left]
      exact ih (Nat.lt_of_succ_lt_succ hk)

/-- Settles O28: bit `8k+j` is a bit of character `k`, whose value R90 gives. -/
theorem textToBitsLayout : Obligations.TextToBitsLayout := by
  intro t
  refine ⟨textToBits_length t, fun k j hk hj => ?_⟩
  rw [textToBits_getElem? hk hj, Option.map_some, charBit_toNat]

/-! ## The values of `BitsToText` -/

/-- The value of chunk `k` of a bit sequence, the sum of `b[8k+j] * 2^(7-j)` (R92). -/
def chunkValue (b : List Bit) (k : Nat) : Nat :=
  ((List.range 8).map fun j => (b.getD (8 * k + j) 0).toNat * 2 ^ (7 - j)).sum

/-- `val8` is the weighted sum of its bits, which fits its cell (R92, R93). -/
theorem val8_toNat (b0 b1 b2 b3 b4 b5 b6 b7 : Bit) : (val8 b0 b1 b2 b3 b4 b5 b6 b7).toNat =
    b0.toNat * 2 ^ 7 + b1.toNat * 2 ^ 6 + b2.toNat * 2 ^ 5 + b3.toNat * 2 ^ 4 + b4.toNat * 2 ^ 3 +
      b5.toNat * 2 ^ 2 + b6.toNat * 2 ^ 1 + b7.toNat * 2 ^ 0 := by
  rw [val8, BitVec.toNat_ofNat]
  exact Nat.mod_eq_of_lt (by omega)

section
variable (b0 b1 b2 b3 b4 b5 b6 b7 : Bit) (rest : List Bit)

/-- The first chunk is the first eight bits. -/
theorem chunkValue_zero :
    chunkValue (b0 :: b1 :: b2 :: b3 :: b4 :: b5 :: b6 :: b7 :: rest) 0 = (val8 b0 b1 b2 b3 b4 b5 b6 b7).toNat := by
  simp [chunkValue, val8_toNat, List.range_succ, Nat.add_assoc]

/-- The chunks after the first are those of the remaining bits. -/
theorem chunkValue_succ (k : Nat) :
    chunkValue (b0 :: b1 :: b2 :: b3 :: b4 :: b5 :: b6 :: b7 :: rest) (k + 1) = chunkValue rest k := by
  have hshift (j : Nat) : 8 * (k + 1) + j = 8 * k + j + 8 := by omega
  simp [chunkValue, hshift]

end

/-- Fewer than eight bits make no character (R92). -/
theorem div_eight_of_bitsToText_nil {b : List Bit} (h : bitsToText b = []) : b.length / 8 = 0 := by
  rw [← bitsToText_length, h, List.length_nil]

/-- Character `k` of `BitsToText` has the value of chunk `k` (R92). -/
theorem bitsToText_getElem_toNat {b : List Bit} {k : Nat} (hk : k < (bitsToText b).length) :
    (bitsToText b)[k].toNat = chunkValue b k := by
  induction b using bitsToText.induct generalizing k with
  | case1 b0 b1 b2 b3 b4 b5 b6 b7 rest ih =>
    cases k with
    | zero => exact (chunkValue_zero ..).symm
    | succ k => exact (ih (Nat.lt_of_succ_lt_succ hk)).trans (chunkValue_succ ..).symm
  | case2 b h =>
    rw [bitsToText.eq_2 b h] at hk
    simp at hk

/-- Settles O29: character `k` has the value of chunk `k`, and eight bits make a character below 256. -/
theorem bitsToTextValues : Obligations.BitsToTextValues := by
  intro b
  refine ⟨bitsToText_length b, fun k hk => ?_⟩
  rw [← bitsToText_length] at hk
  exact ⟨_, List.getElem?_eq_getElem hk, bitsToText_lt b _ (List.getElem_mem hk), bitsToText_getElem_toNat hk⟩

/-! ## The laws of the conversion (R94) -/

/-- The eight bits of a character below 256 are read back as the character, whatever bits follow. -/
theorem bitsToText_bits8_append {c : CodePoint} (hc : c.toNat < 256) (b : List Bit) :
    bitsToText (bits8 c ++ b) = c :: bitsToText b := by
  have hval : val8 (charBit c 0) (charBit c 1) (charBit c 2) (charBit c 3) (charBit c 4) (charBit c 5) (charBit c 6)
      (charBit c 7) = c := by
    apply BitVec.eq_of_toNat_eq
    simp only [val8_toNat, charBit_toNat]
    omega
  exact congrArg (· :: bitsToText b) hval

/-- `val8` keeps its eight bits. -/
theorem bits8_val8 (b0 b1 b2 b3 b4 b5 b6 b7 : Bit) :
    bits8 (val8 b0 b1 b2 b3 b4 b5 b6 b7) = [b0, b1, b2, b3, b4, b5, b6, b7] := by
  simp only [bits8, List.range_succ, List.range_zero, List.nil_append, List.cons_append, List.map_cons, List.map_nil,
    List.cons.injEq, and_true, BitVec.toNat_eq, charBit_toNat, val8_toNat]
  omega

/-- Decoding the encoding of a text of characters below 256 gives it back. -/
theorem bitsToText_textToBits {t : List CodePoint} (ht : ∀ c ∈ t, c.toNat < 256) : bitsToText (textToBits t) = t := by
  induction t with
  | nil => rfl
  | cons c t ih =>
    obtain ⟨hc, ht⟩ := List.forall_mem_cons.mp ht
    rw [textToBits_cons, bitsToText_bits8_append hc, ih ht]

/-- Encoding the decoding of a bit sequence gives its full chunks. -/
theorem textToBits_bitsToText (b : List Bit) : textToBits (bitsToText b) = b.take (8 * (b.length / 8)) := by
  induction b using bitsToText.induct with
  | case1 b0 b1 b2 b3 b4 b5 b6 b7 rest ih =>
    have hlen : 8 * ((rest.length + 8) / 8) = 8 * (rest.length / 8) + 8 := by omega
    rw [bitsToText, textToBits_cons, bits8_val8, ih]
    simp [hlen]
  | case2 b h =>
    have hnil := bitsToText.eq_2 b h
    rw [hnil, div_eight_of_bitsToText_nil hnil]
    rfl

/-- Settles O30: the first law is that of a character with no bits after it. -/
theorem codecLaws : Obligations.CodecLaws :=
  ⟨fun c hc => by simpa [bitsToText] using bitsToText_bits8_append hc [], bits8_val8,
    fun _ => bitsToText_textToBits, textToBits_bitsToText⟩

/-! ## Checks that fail

Each check past its bound fails with its own report (R143, R144). -/

/-- A command whose first failing check raises `e` reports it and changes nothing else (R146). -/
theorem exec_of_failing_check {i : Instr} {s : State} {e : Err} {info : Word} (h : checksOf i s = some (e, info)) :
    exec i s = .next (s.failedWith e.code info) := by
  rw [exec_eq, h]
  rfl

theorem State.textCheck_of_lt {s : State} (h : s.cfg.msgSize < s.mlen.toNat) : s.textCheck = some (.msgRange, 0) :=
  if_pos h

theorem State.textRoom_of_lt {s : State} {n : Nat} (h : s.cfg.msgSize < n) : s.textRoom n = some (.msgRange, 1) :=
  if_pos h

theorem State.bitsCheck_of_lt {s : State} (h : s.cfg.bitSize < s.blen.toNat) : s.bitsCheck = some (.bitRange, 0) :=
  if_pos h

theorem State.bitsRoom_of_lt {s : State} {n : Nat} (h : s.cfg.bitSize < n) : s.bitsRoom n = some (.bitRange, 1) :=
  if_pos h

/-- A success reports so (R75). -/
theorem State.succeed_succeeded (s : State) (trunc found : Bool) : (s.succeed trunc found).succeeded trunc found :=
  ⟨rfl, rfl, rfl, rfl, rfl, rfl⟩

/-! ## PACK -/

/-- PACK stores `TextToBits` of the text (R91). -/
theorem State.packText_readBit {s : State} {i : Nat} (hi : i < (textToBits s.text).length) :
    s.packText.readBit i = (textToBits s.text)[i] := by
  have hwritten := State.readBit_writeBits (s := s) (i := 0) hi
  rwa [Nat.zero_add] at hwritten

/-- Cell `8k+j` of BIT after PACK is bit `j` of character `k` (R90, R91). -/
theorem State.packText_readBit_char {s : State} {k j : Nat} (hk : k < s.mlen.toNat) (hj : j < 8) :
    s.packText.readBit (8 * k + j) = charBit (s.readMsg k) j := by
  have hkt : k < s.text.length := by rwa [State.text_length]
  have hin : 8 * k + j < (textToBits s.text).length := by
    rw [textToBits_length]
    omega
  rw [State.packText_readBit hin, List.getElem_eq_iff, textToBits_getElem? hkt hj, State.text_getElem]

/-- PACK leaves the cells of BIT beyond the bits of the text (R91). -/
theorem State.packText_readBit_of_le {s : State} {i : Nat} (hi : 8 * s.mlen.toNat ≤ i) :
    s.packText.readBit i = s.readBit i := by
  refine State.readBit_writeBits_other (.inr ?_)
  rwa [Nat.zero_add, textToBits_length, State.text_length]

/-- The length of the bits of a text that fit BIT is one that `BLEN` can hold (R5, R91). -/
theorem State.packText_blen {s : State} (hcfg : s.cfg.ok) (hb : 8 * s.mlen.toNat ≤ s.cfg.bitSize) :
    s.packText.blen.toNat = 8 * s.mlen.toNat := by
  obtain ⟨-, -, -, hsize, -⟩ := hcfg
  rw [State.packText, State.setBlen_blen, BitVec.toNat_ofNat]
  exact Nat.mod_eq_of_lt (by omega)

/-- PACK has its effect when its three checks pass. -/
theorem exec_pack {s : State} (hm : s.mlen.toNat ≤ s.cfg.msgSize) (hb : 8 * s.mlen.toNat ≤ s.cfg.bitSize)
    (ht : s.textOk) : exec .pack s = .next (s.packText.succeed false false) :=
  exec_of_checks (s.packCheck_none.mpr ⟨hm, hb, ht⟩)

/-- Settles O16: a check that fails is the first one, after those that pass. -/
theorem packStoresTextBits : Obligations.PackStoresTextBits := by
  refine ⟨decode_encode .pack, fun s hcfg => ⟨fun hm => ?_, fun hm hb => ?_, fun hm hb => ⟨fun j hj hbad hmin => ?_,
    fun ht => ?_⟩⟩⟩
  · have hcheck : checksOf .pack s = some (.msgRange, 0) := by
      rw [checksOf, State.packCheck, State.textCheck_of_lt hm]; rfl
    exact exec_of_failing_check hcheck
  · have hcheck : checksOf .pack s = some (.bitRange, 1) := by
      rw [checksOf, State.packCheck, s.textCheck_none.mpr hm, State.bitsRoom_of_lt hb]; rfl
    exact exec_of_failing_check hcheck
  · have hcheck : checksOf .pack s = some (.char, BitVec.ofNat 32 j) := by
      rw [checksOf, State.packCheck, s.textCheck_none.mpr hm, (s.bitsRoom_none _).mpr hb,
        State.charCheck_eq_some hj hbad hmin]
      rfl
    exact exec_of_failing_check hcheck
  · have hbits (k j : Nat) (hk : k < s.mlen.toNat) (hj : j < 8) :
        (s.packText.readBit (8 * k + j)).toNat = (s.readMsg k).toNat / 2 ^ (7 - j) % 2 := by
      rw [State.packText_readBit_char hk hj, charBit_toNat]
    exact ⟨_, exec_pack hm hb ht, State.succeed_succeeded .., ⟨rfl, rfl, rfl, rfl, rfl, rfl, rfl⟩, fun _ => rfl,
      fun _ => rfl, rfl, State.packText_blen hcfg hb, hbits, fun _ => State.packText_readBit_of_le⟩

/-! ## UNPACK -/

/-- UNPACK stores the characters of the bits (R93). -/
theorem State.unpackBits_readMsg {s : State} {k : Nat} (hk : k < (bitsToText s.bits).length) :
    s.unpackBits.readMsg k = (bitsToText s.bits)[k] := by
  have hwritten := State.readMsg_writeMsgs (s := s) (j := 0) hk
  rwa [Nat.zero_add] at hwritten

/-- UNPACK leaves the cells of MSG beyond the text (R93). -/
theorem State.unpackBits_readMsg_of_le {s : State} {j : Nat} (hj : s.blen.toNat / 8 ≤ j) :
    s.unpackBits.readMsg j = s.readMsg j := by
  refine State.readMsg_writeMsgs_other (.inr ?_)
  rwa [Nat.zero_add, bitsToText_length, State.bits_length]

/-- `MLEN` can hold the number of the characters (R93). -/
theorem State.unpackBits_mlen (s : State) : s.unpackBits.mlen.toNat = s.blen.toNat / 8 := by
  have hlt := s.blen.isLt
  rw [State.unpackBits, State.setMlen_mlen, BitVec.toNat_ofNat]
  exact Nat.mod_eq_of_lt (by omega)

/-- A full chunk of the sequence is eight cells of BIT (R92). -/
theorem State.chunkValue_bits {s : State} {k : Nat} (hk : k < s.blen.toNat / 8) :
    chunkValue s.bits k = s.bitsValue k := by
  refine congrArg List.sum (List.map_congr_left fun j hj => ?_)
  have hj8 : j < 8 := List.mem_range.mp hj
  have hin : 8 * k + j < s.bits.length := by
    rw [State.bits_length]
    omega
  rw [List.getD_eq_getElem _ _ hin, State.bits_getElem]

/-- UNPACK has its effect when its two checks pass. -/
theorem exec_unpack {s : State} (hm : s.blen.toNat / 8 ≤ s.cfg.msgSize) (hb : s.blen.toNat ≤ s.cfg.bitSize) :
    exec .unpack s = .next (s.unpackBits.succeed false false) :=
  exec_of_checks (s.unpackCheck_none.mpr ⟨hm, hb⟩)

/-- Settles O17: a check that fails is the first one, and the values are those of the chunks of the old BIT. -/
theorem unpackStoresBitsText : Obligations.UnpackStoresBitsText := by
  refine ⟨decode_encode .unpack, fun s _ => ⟨fun hm => ?_, fun hm hb => ?_, fun hm hb => ?_⟩⟩
  · have hcheck : checksOf .unpack s = some (.msgRange, 1) := by
      rw [checksOf, State.unpackCheck, State.textRoom_of_lt hm]; rfl
    exact exec_of_failing_check hcheck
  · have hcheck : checksOf .unpack s = some (.bitRange, 0) := by
      rw [checksOf, State.unpackCheck, (s.textRoom_none _).mpr hm, State.bitsCheck_of_lt hb]; rfl
    exact exec_of_failing_check hcheck
  · have hchars (k : Nat) (hk : k < s.blen.toNat / 8) :
        (s.unpackBits.readMsg k).toNat = s.bitsValue k ∧ (s.unpackBits.readMsg k).toNat < 256 := by
      have hkt : k < (bitsToText s.bits).length := by rwa [bitsToText_length, State.bits_length]
      rw [State.unpackBits_readMsg hkt]
      exact ⟨(bitsToText_getElem_toNat hkt).trans (State.chunkValue_bits hk), bitsToText_lt _ _ (List.getElem_mem hkt)⟩
    exact ⟨_, exec_unpack hm hb, State.succeed_succeeded .., ⟨rfl, rfl, rfl, rfl, rfl, rfl, rfl⟩, fun _ => rfl,
      fun _ => rfl, rfl, s.unpackBits_mlen, hchars, fun _ => State.unpackBits_readMsg_of_le⟩

/-! ## PACK and then UNPACK (R95) -/

/-- After PACK the bit sequence is `TextToBits` of the text (R91). -/
theorem State.packText_bits {s : State} (hcfg : s.cfg.ok) (hb : 8 * s.mlen.toNat ≤ s.cfg.bitSize) :
    s.packText.bits = textToBits s.text :=
  List.ext_getElem (by simp [State.packText_blen hcfg hb]) fun i hi hi' =>
    (State.bits_getElem _ i hi).trans (State.packText_readBit hi')

/-- After UNPACK the text is `BitsToText` of the bit sequence (R93). -/
theorem State.unpackBits_text (s : State) : s.unpackBits.text = bitsToText s.bits :=
  List.ext_getElem (by simp [State.unpackBits_mlen]) fun k hk hk' =>
    (State.text_getElem _ k hk).trans (State.unpackBits_readMsg hk')

/-- The characters of a message the conversion takes are below 256 (R90). -/
theorem State.text_lt {s : State} (h : s.textOk) : ∀ c ∈ s.text, c.toNat < 256 := by
  simpa [State.text] using h

/-- The text is `MLEN` and the cells of MSG below it: states with one text agree on both. -/
theorem State.mlen_readMsg_of_text_eq {s t : State} (h : t.text = s.text) :
    t.mlen = s.mlen ∧ ∀ j, j < s.mlen.toNat → t.readMsg j = s.readMsg j := by
  have hlen : t.mlen.toNat = s.mlen.toNat := by rw [← State.text_length, h, State.text_length]
  refine ⟨BitVec.eq_of_toNat_eq hlen, fun j hj => ?_⟩
  have hjs : j < s.text.length := by rwa [State.text_length]
  have hjt : j < t.text.length := by rwa [h]
  calc t.readMsg j
    _ = t.text[j] := (t.text_getElem j hjt).symm
    _ = s.text[j] := List.getElem_of_eq h hjt
    _ = s.readMsg j := s.text_getElem j hjs

/-- Settles O34: UNPACK decodes what PACK encoded, and the third law of R94 gives the text back. -/
theorem packThenUnpackKeepsText : Obligations.PackThenUnpackKeepsText := by
  refine ⟨fun _ => bitsToText_textToBits, fun s hcfg hm hb ht => ?_⟩
  have hblen := State.packText_blen hcfg hb
  have hroom : s.packText.blen.toNat / 8 ≤ s.cfg.msgSize := by omega
  have hbits : s.packText.blen.toNat ≤ s.cfg.bitSize := by omega
  have htext : s.packText.unpackBits.text = s.text := by
    rw [State.unpackBits_text, State.packText_bits hcfg hb, bitsToText_textToBits (State.text_lt ht)]
  exact ⟨_, _, exec_pack hm hb ht, exec_unpack (s := s.packText.succeed false false) hroom hbits, rfl, rfl,
    State.mlen_readMsg_of_text_eq htext⟩

end Sys2Proof.Machine
end

section
/-! PROOF. The capacity (41_capacity.md): what CAP computes and what it leaves unchanged (O15). -/

namespace Sys2Proof.Machine

/-- The capacity fits a word, so `CAPR` holds it whole after CAP (R32, R100). -/
theorem effectOf_cap_capr_toNat (s : State) : (effectOf .cap s).capr.toNat = s.capv := by
  have hle := s.capv_le
  rw [effectOf, State.succeed_capr, State.setCapr_capr, BitVec.toNat_ofNat]
  exact Nat.mod_eq_of_lt (by omega)

/-- The capacity is `(WIDTH * HEIGHT * 3) div 8` (R32). -/
theorem State.capv_eq (s : State) : s.capv = s.width.toNat * s.height.toNat * 3 / 8 := by
  rw [State.capv, State.nc, State.np, Nat.mul_comm]

/-- CAP makes no check, so it always has its effect (R100). -/
theorem exec_cap (s : State) : exec .cap s = .next (effectOf .cap s) := exec_of_checks rfl

/-- Settles O15: CAP always has its effect, a success after one write, and no capacity is too large for that write. -/
theorem capComputesTheCapacity : Obligations.CapComputesTheCapacity := by
  refine ⟨decode_encode .cap, fun s => ⟨effectOf .cap s, exec_cap s, rfl, ?_, ?_⟩⟩
  · exact (effectOf_cap_capr_toNat s).trans s.capv_eq
  · exact (effectOf_cap_capr_toNat s).trans_le s.capv_le

end Sys2Proof.Machine
end

section
/-! PROOF. The pixel encoder (42_pixel_encoder.md): `SetParity` (O27), ENCB whole (O18), its parity invariant (O35), that
channels do not affect each other (O36), and ENCB run twice (O38). -/

namespace Sys2Proof.Machine

/-! ## `SetParity` (R105) -/

/-- The rule's function replaces bit 0 of `v` by `b`. -/
theorem parityRule_eq (v : Nat) {b : Nat} (hb : b < 2) : parityRule v b = v - v % 2 + b := by
  rw [parityRule]
  split_ifs <;> omega

/-- `SetParity` is the rule's function: an even value has room for the addition, an odd one for the subtraction. -/
theorem setParity_toNat (v : Channel) (b : Bit) : (setParity v b).toNat = parityRule v.toNat b.toNat := by
  have hone : b = 1 ↔ b.toNat = 1 := BitVec.toNat_inj.symm
  have hzero : b = 0 ↔ b.toNat = 0 := BitVec.toNat_inj.symm
  simp only [setParity, parityRule, hone, hzero]
  split_ifs
  · bv_omega
  · bv_omega
  · rfl

/-- `SetParity` replaces bit 0. -/
theorem setParity_toNat_eq (v : Channel) (b : Bit) : (setParity v b).toNat = v.toNat - v.toNat % 2 + b.toNat :=
  (setParity_toNat v b).trans (parityRule_eq _ b.isLt)

/-- `SetParity` keeps bits 7:1. -/
theorem setParity_div_two (v : Channel) (b : Bit) : (setParity v b).toNat / 2 = v.toNat / 2 := by
  have hb : b.toNat < 2 := b.isLt
  rw [setParity_toNat_eq]
  omega

/-- A channel of parity `b` is left as it is by `SetParity` with `b`. -/
theorem setParity_eq_self {v : Channel} {b : Bit} (h : v.toNat % 2 = b.toNat) : setParity v b = v := by
  apply BitVec.eq_of_toNat_eq
  rw [setParity_toNat_eq, h]
  omega

/-- `SetParity` is idempotent. -/
theorem setParity_setParity (v : Channel) (b : Bit) : setParity (setParity v b) b = setParity v b :=
  setParity_eq_self (setParity_parity v b)

/-- Settles O27: `SetParity` is the rule's function, which replaces bit 0. -/
theorem setParitySetsBitZero : Obligations.SetParitySetsBitZero := fun v b =>
  ⟨setParity_toNat v b, setParity_parity v b, setParity_div_two v b, setParity_toNat_eq v b, setParity_setParity v b⟩

/-! ## ENCB (R106) -/

theorem State.geomCheck_of_lt {s : State} (h : s.cfg.pixSize < s.np * s.cfg.nch) : s.geomCheck = some (.geom, 0) :=
  if_pos h

/-- ENCB leaves every cell that is of no scan index with a bit. -/
theorem State.encodeBits_readPix_unwritten {s : State} {a : Nat}
    (ha : ∀ k, k < min s.blen.toNat s.nc → a ≠ scanAddr s.cfg k) : s.encodeBits.readPix a = s.readPix a := by
  refine State.readPix_encodeFrom_other fun k _ hk => ha k ?_
  rwa [Nat.zero_add, State.bitsUpTo_length] at hk

/-- ENCB has its effect when its two checks pass. -/
theorem exec_encb {s : State} (hg : s.np * s.cfg.nch ≤ s.cfg.pixSize) (hb : s.blen.toNat ≤ s.cfg.bitSize) :
    exec .encb s = .next (s.encodeBits.succeed s.bitsDropped false) :=
  exec_of_checks (s.encbCheck_none.mpr ⟨hg, hb⟩)

/-- Settles O18: a check that fails is the first one, and each channel that has a bit gets its parity. -/
theorem encbSetsParities : Obligations.EncbSetsParities := by
  refine ⟨decode_encode .encb, fun s hcfg => ⟨fun hg => ?_, fun hg hb => ?_, fun hg hb => ?_⟩⟩
  · have hcheck : checksOf .encb s = some (.geom, 0) := by
      rw [checksOf, State.encbCheck, State.geomCheck_of_lt hg]; rfl
    exact exec_of_failing_check hcheck
  · have hcheck : checksOf .encb s = some (.bitRange, 0) := by
      rw [checksOf, State.encbCheck, s.geomCheck_none.mpr hg, State.bitsCheck_of_lt hb]; rfl
    exact exec_of_failing_check hcheck
  · have hwritten (k : Nat) (hk : k < min s.blen.toNat s.nc) :
        (s.encodeBits.readPix (scanAddr s.cfg k)).toNat =
          parityRule (s.readPix (scanAddr s.cfg k)).toNat (s.readBit k).toNat := by
      rw [State.encodeBits_readPix hcfg.1 hk, setParity_toNat]
    have hrest : s.sameRest (s.encodeBits.succeed s.bitsDropped false) := by simp [State.sameRest]
    exact ⟨_, exec_encb hg hb, State.succeed_succeeded .., hrest, s.encodeBits_readBit, s.encodeBits_readMsg,
      s.encodeBits_mlen, s.encodeBits_blen, hwritten, fun _ => State.encodeBits_readPix_unwritten⟩

/-! ## What a successful ENCB leaves in `PIX` -/

section
variable {s t : State} (ht : exec .encb s = .next t) (herr : t.err = false)
include ht herr

/-- A successful ENCB leaves the writes of its rule and a success. -/
theorem eq_of_exec_encb : t = s.encodeBits.succeed s.bitsDropped false := (exec_succeeds ht herr).2

/-- The channel of a scan index that has a bit gets the parity of that bit. -/
theorem readPix_of_exec_encb (hcfg : s.cfg.ok) {k : Nat} (hk : k < min s.blen.toNat s.nc) :
    t.readPix (scanAddr s.cfg k) = setParity (s.readPix (scanAddr s.cfg k)) (s.readBit k) := by
  rw [eq_of_exec_encb ht herr]
  exact State.encodeBits_readPix hcfg.1 hk

/-- Every other cell reads as before. -/
theorem readPix_of_exec_encb_unwritten {a : Nat} (ha : ∀ k, k < min s.blen.toNat s.nc → a ≠ scanAddr s.cfg k) :
    t.readPix a = s.readPix a := by
  rw [eq_of_exec_encb ht herr]
  exact State.encodeBits_readPix_unwritten ha

end

/-- Settles O35: a written channel is `SetParity` of its old value; a scan index without a bit shares its cell with none
that has one. -/
theorem parityInvariant : Obligations.ParityInvariant := by
  intro s t hcfg ht herr
  refine ⟨fun k hk => ?_, fun k hk _ => ?_, fun a ha => ?_⟩
  · rw [readPix_of_exec_encb ht herr hcfg hk]
    exact ⟨setParity_parity _ _, setParity_div_two _ _⟩
  · refine readPix_of_exec_encb_unwritten ht herr fun j hj haddr => ?_
    have hkj := scanAddr_inj hcfg.1 haddr
    omega
  · exact readPix_of_exec_encb_unwritten ht herr fun k hk => ha k (lt_min_iff.mp hk).2

/-- Settles O36: both channels are `SetParity` of the same value and the same bit. -/
theorem pixelsAreIndependent : Obligations.PixelsAreIndependent := by
  intro s s' t t' k hcfg hsame ht herr ht' herr' hk hk' hold hbit
  have hcfg' : s'.cfg.ok := hsame ▸ hcfg
  have hnew := readPix_of_exec_encb ht herr hcfg hk
  have hnew' := readPix_of_exec_encb ht' herr' hcfg' hk'
  rw [hsame] at hnew'
  rw [hnew, hnew', hold, hbit]

/-! ## ENCB twice -/

/-- Where every channel that has a bit already has its parity, ENCB leaves every cell of `PIX` (R105, R106). -/
theorem State.encodeBits_readPix_of_parities {s : State} (hnch : 3 ≤ s.cfg.nch)
    (h : ∀ k, k < min s.blen.toNat s.nc → (s.readPix (scanAddr s.cfg k)).toNat % 2 = (s.readBit k).toNat) (a : Nat) :
    s.encodeBits.readPix a = s.readPix a := by
  by_cases hscan : ∃ k, k < min s.blen.toNat s.nc ∧ a = scanAddr s.cfg k
  · obtain ⟨k, hk, rfl⟩ := hscan
    rw [State.encodeBits_readPix hnch hk, setParity_eq_self (h k hk)]
  · exact State.encodeBits_readPix_unwritten fun k hk haddr => hscan ⟨k, hk, haddr⟩

/-- Where a success with the same `TRUNC` is already reported, ENCB changes no field but `PIX` (R75, R106). -/
theorem State.encodeBits_succeed_eq (s : State) (trunc : Bool) :
    (s.succeed trunc false).encodeBits.succeed trunc false =
      { s.succeed trunc false with pix := (s.succeed trunc false).encodeBits.pix } := by
  rw [State.encodeBits_eq]
  rfl

/-- Settles O38: after the first ENCB every channel that has a bit has its parity, and the report is that of the second. -/
theorem secondEncbChangesNothing : Obligations.SecondEncbChangesNothing := by
  intro s t hcfg ht herr
  obtain ⟨hg, hb⟩ := s.encbCheck_none.mp (exec_succeeds ht herr).1
  have hparities := (parityInvariant s t hcfg ht herr).1
  obtain rfl := eq_of_exec_encb ht herr
  have hdropped : (s.encodeBits.succeed s.bitsDropped false).bitsDropped = s.bitsDropped := by simp [State.bitsDropped]
  refine ⟨_, exec_encb (by simpa using hg) (by simpa using hb), rfl, ?_,
    State.encodeBits_readPix_of_parities (by simpa using hcfg.1) (by simpa using fun k hk => (hparities k hk).1)⟩
  rw [hdropped]
  exact State.encodeBits_succeed_eq _ _

end Sys2Proof.Machine
end

section
/-! PROOF. The pixel decoder (43_pixel_decoder.md): DECB whole (O19), and DECB after ENCB (O37). -/

namespace Sys2Proof.Machine

/-! ## DECB (R116) -/

/-- The value of the bit that DECB stores for a scan index is the parity of its channel (R115, R116). -/
theorem State.decodeImage_readBit_toNat {s : State} {k : Nat} (hk : k < s.nc) :
    (s.decodeImage.readBit k).toNat = (s.readPix (scanAddr s.cfg k)).toNat % 2 := by
  rw [State.decodeImage_readBit hk, BitVec.toNat_ofNat, Nat.pow_one, Nat.mod_mod]

/-- DECB leaves the cells of BIT beyond the `NC` bits of the image (R116). -/
theorem State.decodeImage_readBit_of_le {s : State} {i : Nat} (hi : s.nc ≤ i) :
    s.decodeImage.readBit i = s.readBit i := by
  refine State.readBit_writeBits_other (.inr ?_)
  rwa [Nat.zero_add, State.imageBits_length]

/-- A number of bits that fit BIT is one that `BLEN` can hold (R5, R116). -/
theorem State.decodeImage_blen {s : State} (hcfg : s.cfg.ok) (hb : s.nc ≤ s.cfg.bitSize) :
    s.decodeImage.blen.toNat = s.nc := by
  obtain ⟨-, -, -, hsize, -⟩ := hcfg
  rw [State.decodeImage, State.setBlen_blen, BitVec.toNat_ofNat]
  exact Nat.mod_eq_of_lt (by omega)

/-- DECB has its effect when its two checks pass. -/
theorem exec_decb {s : State} (hg : s.np * s.cfg.nch ≤ s.cfg.pixSize) (hb : s.nc ≤ s.cfg.bitSize) :
    exec .decb s = .next (s.decodeImage.succeed false false) :=
  exec_of_checks (s.decbCheck_none.mpr ⟨hg, hb⟩)

/-- Settles O19: a check that fails is the first one, and below `NC` the bits stored are the image's parities. -/
theorem decbReadsParities : Obligations.DecbReadsParities := by
  refine ⟨decode_encode .decb, fun s hcfg => ⟨fun hg => ?_, fun hg hb => ?_, fun hg hb => ?_⟩⟩
  · have hcheck : checksOf .decb s = some (.geom, 0) := by
      rw [checksOf, State.decbCheck, State.geomCheck_of_lt hg]; rfl
    exact exec_of_failing_check hcheck
  · have hcheck : checksOf .decb s = some (.bitRange, 1) := by
      rw [checksOf, State.decbCheck, s.geomCheck_none.mpr hg, State.bitsRoom_of_lt hb]; rfl
    exact exec_of_failing_check hcheck
  · exact ⟨_, exec_decb hg hb, State.succeed_succeeded .., ⟨rfl, rfl, rfl, rfl, rfl, rfl, rfl⟩, fun _ => rfl,
      fun _ => rfl, rfl, State.decodeImage_blen hcfg hb, fun _ => State.decodeImage_readBit_toNat,
      fun _ => State.decodeImage_readBit_of_le⟩

/-! ## DECB after ENCB (R117) -/

/-- Settles O37: DECB reads the channels that ENCB left, which have the encoded bit as their parity where there was one
(R107) and are the source image's where there was none. -/
theorem decbAfterEncb : Obligations.DecbAfterEncb := by
  intro s hcfg hg hblen hnc
  obtain ⟨t, hencb, herr⟩ : ∃ t, exec .encb s = .next t ∧ t.err = false := ⟨_, exec_encb hg hblen, rfl⟩
  obtain ⟨hencoded, hkept, -⟩ := parityInvariant s t hcfg hencb herr
  have hcfg_t : t.cfg = s.cfg := exec_cfg hencb
  have hnp_t : t.np = s.np := by simp [eq_of_exec_encb hencb herr]
  have hnc_t : t.nc = s.nc := congrArg (3 * ·) hnp_t
  have hroom : t.nc ≤ t.cfg.bitSize := by rwa [hnc_t, hcfg_t]
  have hdecb := exec_decb (s := t) (by rwa [hnp_t, hcfg_t]) hroom
  have hdecoded (k : Nat) (hk : k < s.nc) :
      (t.decodeImage.readBit k).toNat = (t.readPix (scanAddr s.cfg k)).toNat % 2 := by
    rw [State.decodeImage_readBit_toNat (hnc_t ▸ hk), hcfg_t]
  refine ⟨t, _, hencb, hdecb, herr, rfl, ?_, fun k hk => ?_, fun k hk hk' => ?_⟩
  · exact (State.decodeImage_blen (hcfg_t ▸ hcfg) hroom).trans hnc_t
  · exact BitVec.eq_of_toNat_eq ((hdecoded k (lt_min_iff.mp hk).2).trans (hencoded k hk).1)
  · exact (hdecoded k hk').trans (by rw [hkept k hk hk'])

end Sys2Proof.Machine
end

section
/-! PROOF. The message framer (44_framer.md): `Keep` (O31), `Find` (O32), FRAME (O20) and UNFRAME (O21) whole, UNFRAME run
twice (O39), and FRAME and then UNFRAME (O33). -/

namespace Sys2Proof.Machine

/-! ## `Keep` (R122) -/

/-- Regime A: the terminator fits the capacity. -/
theorem keepLen_of_four_le {n cap : Nat} (h : 4 ≤ cap) : keepLen n cap = min n (cap - 4) := if_pos h

/-- Regime B: the terminator does not fit. -/
theorem keepLen_of_lt_four {n cap : Nat} (h : cap < 4) : keepLen n cap = n := if_neg (Nat.not_le_of_lt h)

/-- In regime A the framed message fits the capacity. -/
theorem keepLen_add_four_le (n : Nat) {cap : Nat} (h : 4 ≤ cap) : keepLen n cap + 4 ≤ cap := by
  rw [keepLen_of_four_le h]
  omega

/-- Settles O31: a framed message that fits the capacity fits the bit budget. -/
theorem keepRegimes : Obligations.KeepRegimes :=
  ⟨fun n _ hcap => ⟨keepLen_of_four_le hcap, keepLen_add_four_le n hcap⟩, fun _ _ => keepLen_of_lt_four,
    fun n nc hcap => ⟨Nat.mul_le_mul_left 8 (keepLen_add_four_le n hcap), Nat.mul_div_le nc 8⟩⟩

/-! ## `Find` (R123) -/

/-- The terminator stands at index `i` of a text. -/
def stopStands (t : List CodePoint) (i : Nat) : Prop := (t.drop i).take 4 = terminator

/-- The terminator lies inside the text in which it stands. -/
theorem stopStands.add_four_le {t : List CodePoint} {i : Nat} (h : stopStands t i) : i + 4 ≤ t.length := by
  have hlen : ((t.drop i).take 4).length = 4 := congrArg List.length h
  rw [List.length_take, List.length_drop] at hlen
  omega

/-- After its first character a text goes on as the rest does. -/
@[simp] theorem stopStands_cons_succ (c : CodePoint) (t : List CodePoint) (i : Nat) :
    stopStands (c :: t) (i + 1) ↔ stopStands t i := Iff.rfl

/-- The model's test at the head of a text. -/
theorem startsWithStop_iff (t : List CodePoint) : startsWithStop t = true ↔ stopStands t 0 := by
  match t with
  | [] | [_] | [_, _] | [_, _, _] => simp [startsWithStop, stopStands, terminator]
  | _ :: _ :: _ :: _ :: _ => simp [startsWithStop, stopStands, terminator, and_assoc]

/-- `Find` gives the least index at which the terminator stands. -/
theorem findStop_eq_some {t : List CodePoint} {i : Nat} :
    findStop t = some i ↔ stopStands t i ∧ ∀ j, j < i → ¬stopStands t j := by
  induction t generalizing i with
  | nil =>
    have hnone : ¬stopStands [] i := fun h => absurd h.add_four_le (by simp)
    simp [findStop, hnone]
  | cons c t ih =>
    have hhead := startsWithStop_iff (c :: t)
    rw [findStop_cons]
    cases i with
    | zero => by_cases h : stopStands (c :: t) 0 <;> simp [hhead, h]
    | succ i =>
      rw [Nat.forall_lt_succ_left]
      by_cases h : stopStands (c :: t) 0
      · simp [hhead, h]
      · simpa [hhead, h] using ih

/-- Settles O32: the four characters from `i` on are the terminator where it stands. -/
theorem findIsLeastIndex : Obligations.FindIsLeastIndex := fun _ _ => findStop_eq_some

/-- `Find` gives nothing exactly when the terminator stands nowhere. -/
theorem findStop_eq_none {t : List CodePoint} : findStop t = none ↔ ∀ i, ¬stopStands t i := by
  classical
  refine ⟨fun hnone i hi => ?_, fun h => ?_⟩
  · have hex : ∃ i, stopStands t i := ⟨i, hi⟩
    have hsome := findStop_eq_some.mpr ⟨Nat.find_spec hex, fun _ => Nat.find_min hex⟩
    simp [hnone] at hsome
  · exact Option.eq_none_iff_forall_ne_some.mpr fun i hi => h i (findStop_eq_some.mp hi).1

/-! ## The text before the terminator -/

/-- The text UNFRAME gives: what stands before the first terminator, the whole text when there is none (R124). -/
def beforeStop (t : List CodePoint) : List CodePoint := t.take ((findStop t).getD t.length)

theorem beforeStop_of_none {t : List CodePoint} (h : findStop t = none) : beforeStop t = t := by
  rw [beforeStop, h, Option.getD_none, List.take_length]

theorem beforeStop_of_some {t : List CodePoint} {r : Nat} (h : findStop t = some r) : beforeStop t = t.take r := by
  rw [beforeStop, h, Option.getD_some]

/-- UNFRAME gives the whole text only when it has no terminator, since one takes up four characters. -/
theorem beforeStop_eq_self {t : List CodePoint} : beforeStop t = t ↔ findStop t = none := by
  refine ⟨fun h => Option.eq_none_iff_forall_ne_some.mpr fun r hr => ?_, beforeStop_of_none⟩
  have hin := findStop_add_four_le hr
  have hlen := congrArg List.length h
  rw [beforeStop_of_some hr, List.length_take] at hlen
  omega

/-- What is appended to a text matters to no terminator that lies inside the text. -/
theorem stopStands_append {t : List CodePoint} {i : Nat} (h : i + 4 ≤ t.length) (u : List CodePoint) :
    stopStands (t ++ u) i ↔ stopStands t i := by
  have hroom : 4 ≤ (t.drop i).length := by
    rw [List.length_drop]
    omega
  rw [stopStands, List.drop_append_of_le_length (by omega), List.take_append_of_le_length hroom, stopStands]

/-- A terminator in the first part of a text stands in the text. -/
theorem stopStands.of_take {t : List CodePoint} {r i : Nat} (h : stopStands (t.take r) i) : stopStands t i := by
  rw [← List.take_append_drop r t]
  exact (stopStands_append h.add_four_le _).mpr h

/-- Before the first terminator there is none. -/
theorem findStop_beforeStop (t : List CodePoint) : findStop (beforeStop t) = none := by
  cases h : findStop t with
  | none => rwa [beforeStop_of_none h]
  | some r =>
    rw [beforeStop_of_some h, findStop_eq_none]
    intro i hi
    have hlt : i < r := by
      have := hi.add_four_le
      rw [List.length_take] at this
      omega
    exact (findStop_eq_some.mp h).2 i hlt hi.of_take

/-! ## "STOP" has no border (R125) -/

/-- No proper beginning of the terminator is a proper end of it. -/
theorem terminator_no_border {n : Nat} (h1 : 1 ≤ n) (h3 : n ≤ 3) : terminator.take n ≠ terminator.drop (4 - n) := by
  interval_cases n <;> decide

/-- A terminator that ends inside the appended one is no terminator: the two would overlap in a border. -/
theorem not_stopStands_overlap {t : List CodePoint} {i : Nat} (hlt : i < t.length) (hover : t.length < i + 4) :
    ¬stopStands (t ++ terminator) i := by
  intro h
  have hlen : (t.drop i).length = t.length - i := List.length_drop
  have hsplit : t.drop i ++ terminator.take (4 - (t.length - i)) = terminator := by
    rw [stopStands, List.drop_append_of_le_length hlt.le, List.take_append, hlen,
      List.take_of_length_le (by omega)] at h
    exact h
  have hborder := congrArg (List.drop (t.length - i)) hsplit
  rw [List.drop_left' hlen] at hborder
  refine terminator_no_border (by omega) (by omega) (hborder.trans ?_)
  congr 1
  omega

/-- In a text with the terminator appended, the first terminator is the first of the text, or the appended one. -/
theorem findStop_append_terminator (t : List CodePoint) :
    findStop (t ++ terminator) = some ((findStop t).getD t.length) := by
  rw [findStop_eq_some]
  cases h : findStop t with
  | some r =>
    have hin := findStop_add_four_le h
    obtain ⟨hr, hleast⟩ := findStop_eq_some.mp h
    refine ⟨(stopStands_append hin _).mpr hr, fun j (hj : j < r) => ?_⟩
    rw [stopStands_append (by omega)]
    exact hleast j hj
  | none =>
    refine ⟨?_, fun j (hj : j < t.length) => ?_⟩
    · rw [Option.getD_none, stopStands, List.drop_left]
      rfl
    · rcases Nat.lt_or_ge t.length (j + 4) with hover | hin
      · exact not_stopStands_overlap hj hover
      · rw [stopStands_append hin]
        exact findStop_eq_none.mp h j

/-- The appended terminator is found exactly when the text has none. -/
theorem findStop_append_terminator_eq_length {t : List CodePoint} :
    findStop (t ++ terminator) = some t.length ↔ findStop t = none := by
  rw [findStop_append_terminator]
  cases h : findStop t with
  | none => simp
  | some r =>
    have hin := findStop_add_four_le h
    simp only [Option.getD_some, Option.some.injEq, reduceCtorEq, iff_false]
    omega

/-- UNFRAME undoes the appending of the terminator, up to the first terminator of the text itself. -/
theorem beforeStop_append_terminator (t : List CodePoint) : beforeStop (t ++ terminator) = beforeStop t := by
  have hle : (findStop t).getD t.length ≤ t.length := by
    cases h : findStop t with
    | none => exact le_rfl
    | some r => exact (Nat.le_add_right r 4).trans (findStop_add_four_le h)
  rw [beforeStop_of_some (findStop_append_terminator t), List.take_append_of_le_length hle, beforeStop]

/-! ## The text of a state -/

/-- The text of a state whose cells of MSG read as those of `s` and whose `MLEN` is no larger. -/
theorem State.text_eq_take {s t : State} (hle : t.mlen.toNat ≤ s.mlen.toNat) (hmsg : s.sameMsg t) :
    t.text = s.text.take t.mlen.toNat :=
  List.ext_getElem (by simpa using hle) fun j hj hj' => by
    rw [List.getElem_take, State.text_getElem, State.text_getElem, hmsg]

/-- Two states have one text exactly when they agree on `MLEN` and on the cells of MSG below it. -/
theorem State.text_eq_iff {s t : State} :
    t.text = s.text ↔ t.mlen = s.mlen ∧ ∀ j, j < s.mlen.toNat → t.readMsg j = s.readMsg j := by
  refine ⟨State.mlen_readMsg_of_text_eq, fun ⟨hmlen, hmsg⟩ => ?_⟩
  refine List.ext_getElem (by simp [hmlen]) fun j hj hj' => ?_
  rw [State.text_getElem, State.text_getElem]
  exact hmsg j (by rwa [State.text_length] at hj')

/-- A run of characters inside the text is a run of cells of MSG. -/
theorem State.text_drop_take {s : State} {i n : Nat} (h : i + n ≤ s.mlen.toNat) :
    (s.text.drop i).take n = (List.range n).map fun k => s.readMsg (i + k) :=
  List.ext_getElem (by simp; omega) fun k hk hk' => by simp [State.text_getElem]

/-- The terminator stands in the text exactly where its four characters stand in MSG. -/
theorem State.stopStands_text {s : State} {i : Nat} : stopStands s.text i ↔ s.stopAt s.mlen.toNat i := by
  have hcells (h : i + 4 ≤ s.mlen.toNat) : stopStands s.text i ↔ s.stopAt s.mlen.toNat i := by
    rw [stopStands, State.text_drop_take h]
    simp [State.stopAt, terminator, h, List.range_succ]
  exact ⟨fun h => (hcells (by simpa using h.add_four_le)).mp h, fun h => (hcells h.1).mpr h⟩

/-- `Find` of the text is the first index at which the terminator stands in MSG. -/
theorem State.findStop_text {s : State} {r : Nat} :
    findStop s.text = some r ↔ s.firstStopAt s.mlen.toNat r := by
  simp only [findStop_eq_some, State.stopStands_text, State.firstStopAt]

/-! ## FRAME (R121) -/

/-- FRAME has its effect when its two checks pass. -/
theorem exec_frame {s : State} (hm : s.mlen.toNat ≤ s.cfg.msgSize) (hk : s.keep + 4 ≤ s.cfg.msgSize) :
    exec .frame s = .next (s.frameText.succeed s.charsDropped false) :=
  exec_of_checks (s.frameCheck_none.mpr ⟨hm, hk⟩)

/-- A length that fits MSG is one that `MLEN` can hold (R5, R121). -/
theorem State.frameText_mlen {s : State} (hcfg : s.cfg.ok) (hk : s.keep + 4 ≤ s.cfg.msgSize) :
    s.frameText.mlen.toNat = s.keep + 4 := by
  obtain ⟨-, -, -, -, hsize⟩ := hcfg
  rw [State.frameText, State.setMlen_mlen, BitVec.toNat_ofNat]
  exact Nat.mod_eq_of_lt (by omega)

/-- FRAME writes the terminator after the characters it keeps. -/
theorem State.frameText_readMsg {s : State} {k : Nat} (hk : k < terminator.length) :
    s.frameText.readMsg (s.keep + k) = terminator[k] := State.readMsg_writeMsgs hk

/-- FRAME leaves every other cell of MSG. -/
theorem State.frameText_readMsg_other {s : State} {j : Nat} (h : j < s.keep ∨ s.keep + 4 ≤ j) :
    s.frameText.readMsg j = s.readMsg j := State.readMsg_writeMsgs_other h

/-- What FRAME keeps, with the bit budget written out (R32, R121). -/
theorem State.keep_eq (s : State) : s.keep = keepLen s.mlen.toNat (3 * s.width.toNat * s.height.toNat / 8) := by
  rw [State.keep, State.capv, State.nc, State.np, Nat.mul_assoc]

/-- Settles O20: a check that fails is the first one, and the four cells after those kept get the terminator. -/
theorem frameAppendsStop : Obligations.FrameAppendsStop := by
  refine ⟨decode_encode .frame, fun s keep hcfg hkeep => ?_⟩
  obtain rfl : keep = s.keep := hkeep.trans s.keep_eq.symm
  refine ⟨fun hm => ?_, fun hm hk => ?_, fun hm hk => ?_⟩
  · have hcheck : checksOf .frame s = some (.msgRange, 0) := by
      rw [checksOf, State.frameCheck, State.textCheck_of_lt hm]; rfl
    exact exec_of_failing_check hcheck
  · have hcheck : checksOf .frame s = some (.msgRange, 1) := by
      rw [checksOf, State.frameCheck, s.textCheck_none.mpr hm, State.textRoom_of_lt hk]; rfl
    exact exec_of_failing_check hcheck
  · exact ⟨_, exec_frame hm hk, State.succeed_succeeded .., ⟨rfl, rfl, rfl, rfl, rfl, rfl, rfl⟩, fun _ => rfl,
      fun _ => rfl, rfl, State.frameText_mlen hcfg hk, State.frameText_readMsg (k := 0) (by decide),
      State.frameText_readMsg (k := 1) (by decide), State.frameText_readMsg (k := 2) (by decide),
      State.frameText_readMsg (k := 3) (by decide), fun _ => State.frameText_readMsg_other⟩

/-! ## UNFRAME (R124) -/

/-- UNFRAME has its effect when its check passes. -/
theorem exec_unframe {s : State} (hm : s.mlen.toNat ≤ s.cfg.msgSize) : exec .unframe s = .next s.unframeText :=
  exec_of_checks (s.textCheck_none.mpr hm)

/-- Where `Find` gives nothing, UNFRAME keeps the text. -/
theorem State.unframeText_of_none {s : State} (h : findStop s.text = none) : s.unframeText = s.succeed false false := by
  rw [State.unframeText, h]

/-- Where `Find` gives `r`, UNFRAME cuts the text there. -/
theorem State.unframeText_of_some {s : State} {r : Nat} (h : findStop s.text = some r) :
    s.unframeText = (s.setMlen (BitVec.ofNat 32 r)).succeed false true := by
  rw [State.unframeText, h]

/-- `MLEN` can hold the index at which the text is cut. -/
theorem State.unframeText_mlen_of_some {s : State} {r : Nat} (h : findStop s.text = some r) :
    s.unframeText.mlen.toNat = r := by
  have hin := findStop_add_four_le h
  have hlt := s.mlen.isLt
  rw [State.text_length] at hin
  rw [State.unframeText_of_some h, State.succeed_mlen, State.setMlen_mlen, BitVec.toNat_ofNat]
  exact Nat.mod_eq_of_lt (by omega)

/-- Settles O21: UNFRAME is told what it does by `Find` of the text, and it writes no cell. -/
theorem unframeCutsAtFirstStop : Obligations.UnframeCutsAtFirstStop := by
  refine ⟨decode_encode .unframe, fun s => ⟨fun hm => ?_, fun hm => ?_⟩⟩
  · have hcheck : checksOf .unframe s = some (.msgRange, 0) := State.textCheck_of_lt hm
    exact exec_of_failing_check hcheck
  · refine ⟨_, exec_unframe hm, by simp [State.sameRest], s.unframeText_readPix, s.unframeText_readBit,
      s.unframeText_readMsg, s.unframeText_blen, fun r hr => ?_, fun hnone => ?_⟩
    · have hfind := State.findStop_text.mpr hr
      refine ⟨?_, State.unframeText_mlen_of_some hfind⟩
      rw [State.unframeText_of_some hfind]
      exact State.succeed_succeeded ..
    · have hfind : findStop s.text = none := findStop_eq_none.mpr fun r hr => hnone r (State.stopStands_text.mp hr)
      rw [State.unframeText_of_none hfind]
      exact ⟨State.succeed_succeeded .., rfl⟩

/-- UNFRAME leaves the text before the first terminator. -/
theorem State.unframeText_text (s : State) : s.unframeText.text = beforeStop s.text := by
  cases h : findStop s.text with
  | none =>
    rw [beforeStop_of_none h, State.unframeText_of_none h]
    rfl
  | some r =>
    have hin := findStop_add_four_le h
    have hmlen := State.unframeText_mlen_of_some h
    rw [State.text_length] at hin
    rw [State.text_eq_take (by omega) s.unframeText_readMsg, hmlen, beforeStop_of_some h]

/-- UNFRAME makes no text longer. -/
theorem State.unframeText_mlen_le (s : State) : s.unframeText.mlen.toNat ≤ s.mlen.toNat := by
  rw [← State.text_length, State.unframeText_text, beforeStop, ← State.text_length]
  exact List.length_take_le' ..

/-- Settles O39: the text that the first UNFRAME leaves has no terminator. -/
theorem secondUnframeFindsNothing : Obligations.SecondUnframeFindsNothing := by
  intro s t ht herr
  obtain ⟨hcheck, heffect⟩ := exec_succeeds ht herr
  obtain rfl : t = s.unframeText := heffect
  have hm : s.unframeText.mlen.toNat ≤ s.unframeText.cfg.msgSize := by
    rw [State.unframeText_cfg]
    exact s.unframeText_mlen_le.trans (s.textCheck_none.mp hcheck)
  have hnone : findStop s.unframeText.text = none := by
    rw [State.unframeText_text]
    exact findStop_beforeStop _
  refine ⟨_, exec_unframe hm, ?_⟩
  rw [State.unframeText_of_none hnone]
  exact ⟨rfl, rfl, rfl⟩

/-! ## FRAME and then UNFRAME (R125) -/

/-- After FRAME the text is the characters kept and then the terminator. -/
theorem State.frameText_text {s : State} (hcfg : s.cfg.ok) (hk : s.keep + 4 ≤ s.cfg.msgSize) :
    s.frameText.text = s.text.take s.keep ++ terminator := by
  have hle : s.keep ≤ s.mlen.toNat := keepLen_le _ _
  have hkept : (s.text.take s.keep).length = s.keep := by simpa using hle
  refine List.ext_getElem (by simp [State.frameText_mlen hcfg hk, hle]) fun j hj hj' => ?_
  rw [State.text_getElem]
  rcases Nat.lt_or_ge j s.keep with hlt | hge
  · rw [State.frameText_readMsg_other (.inl hlt), List.getElem_append_left (by omega), List.getElem_take,
      State.text_getElem]
  · obtain ⟨k, rfl⟩ := Nat.exists_eq_add_of_le hge
    have hkstop : k < terminator.length := by
      rw [List.length_append, hkept] at hj'
      omega
    rw [State.frameText_readMsg hkstop, List.getElem_append_right (by omega)]
    simp [hkept]

/-- When FRAME drops nothing, the framed text is the whole text and then the terminator. -/
theorem State.frameText_text_of_not_dropped {s : State} (hcfg : s.cfg.ok) (hk : s.keep + 4 ≤ s.cfg.msgSize)
    (h : s.charsDropped = false) : s.frameText.text = s.text ++ terminator := by
  have hle : s.mlen.toNat ≤ s.keep := Nat.not_lt.mp (of_decide_eq_false h)
  rw [State.frameText_text hcfg hk, List.take_of_length_le (by rwa [State.text_length])]

/-- Settles O33: the sequence leaves the text before the first terminator of the message, which is the message exactly
when it has none. -/
theorem stopHasNoBorder : Obligations.StopHasNoBorder := by
  refine ⟨fun _ => terminator_no_border, fun _ _ => findStop_append_terminator_eq_length, ?_⟩
  intro s t hcfg ht herr htrunc
  obtain ⟨hcheck, rfl⟩ := exec_succeeds ht herr
  obtain ⟨-, hk⟩ := s.frameCheck_none.mp hcheck
  have hm : (effectOf .frame s).mlen.toNat ≤ (effectOf .frame s).cfg.msgSize :=
    (State.frameText_mlen hcfg hk).trans_le hk
  have hframed : (effectOf .frame s).text = s.text ++ terminator :=
    State.frameText_text_of_not_dropped hcfg hk htrunc
  refine ⟨_, exec_unframe hm, ?_⟩
  rw [← State.text_eq_iff, State.unframeText_text, hframed, beforeStop_append_terminator]
  exact beforeStop_eq_self

end Sys2Proof.Machine
end

section
/-! PROOF. The composite commands (45_composite.md): HIDE (O22) and REVEAL (O23) whole, each against the script of its
parts (O40, O41), HIDE at the boundary (O44), REVEAL of an image without a message (O45), and HIDE and then REVEAL (O42,
O43). -/

namespace Sys2Proof.Machine

/-! ## HIDE (R130) -/

/-- HIDE has its effect when its five checks pass. -/
theorem exec_hide {s : State} (hg : s.np * s.cfg.nch ≤ s.cfg.pixSize) (hm : s.mlen.toNat ≤ s.cfg.msgSize)
    (hk : s.keep + 4 ≤ s.cfg.msgSize) (hb : 8 * (s.keep + 4) ≤ s.cfg.bitSize) (ht : s.textOk) :
    exec .hide s = .next (s.hideText.succeed s.hideDropped false) :=
  exec_of_checks (s.hideCheck_none.mpr ⟨hg, hm, hk, hb, ht⟩)

/-- `TRUNC` after HIDE, in the words of R130. -/
theorem State.hideDropped_eq (s : State) :
    s.hideDropped = decide (s.keep < s.mlen.toNat ∨ s.nc < 8 * (s.keep + 4)) := by
  rw [State.hideDropped, State.charsDropped, Bool.decide_or]

/-- HIDE writes the cells of `MSG` that FRAME writes and no other. -/
theorem State.hideText_readMsg_other {s : State} {j : Nat} (h : j < s.keep ∨ s.keep + 4 ≤ j) :
    s.hideText.readMsg j = s.readMsg j := (s.hideText_readMsg j).trans (State.frameText_readMsg_other h)

/-- HIDE writes the terminator after the characters it keeps. -/
theorem State.hideText_readMsg_terminator (s : State) : s.hideText.readMsg s.keep = 83 ∧
    s.hideText.readMsg (s.keep + 1) = 84 ∧ s.hideText.readMsg (s.keep + 2) = 79 ∧
    s.hideText.readMsg (s.keep + 3) = 80 := by
  simp only [State.hideText_readMsg]
  exact ⟨State.frameText_readMsg (k := 0) (by decide), State.frameText_readMsg (k := 1) (by decide),
    State.frameText_readMsg (k := 2) (by decide), State.frameText_readMsg (k := 3) (by decide)⟩

/-- A success keeps the text. -/
theorem State.succeed_text (s : State) (trunc found : Bool) : (s.succeed trunc found).text = s.text := rfl

/-- The text after HIDE is the framed text. -/
theorem State.hideText_text (s : State) : s.hideText.text = s.frameText.text := by simp [State.text, State.hideText]

/-! HIDE writes no dimension, so it keeps the derived quantities of R32. -/

@[simp] theorem State.hideText_np (s : State) : s.hideText.np = s.np := by simp [State.hideText]
@[simp] theorem State.hideText_nc (s : State) : s.hideText.nc = s.nc := by simp [State.hideText]
@[simp] theorem State.hideText_capv (s : State) : s.hideText.capv = s.capv := by simp [State.hideText]

section
variable {s : State} (hcfg : s.cfg.ok) (hk : s.keep + 4 ≤ s.cfg.msgSize)
include hcfg hk

/-- A message of characters below 256 is framed to a text of characters below 256, which PACK takes. -/
theorem State.frameText_textOk (ht : s.textOk) : s.frameText.textOk := by
  have hchars : ∀ c ∈ s.frameText.text, c.toNat < 256 := by
    intro c hc
    rw [State.frameText_text hcfg hk] at hc
    rcases List.mem_append.mp hc with hkept | hstop
    · exact State.text_lt ht c (List.mem_of_mem_take hkept)
    · exact terminator_lt c hstop
  simpa [State.text] using hchars

/-- HIDE stores the bits of the characters it leaves in `MSG`. -/
theorem State.hideText_readBit_char {k j : Nat} (hkeep : k < s.keep + 4) (hj : j < 8) :
    s.hideText.readBit (8 * k + j) = charBit (s.hideText.readMsg k) j := by
  have hkt : k < s.frameText.mlen.toNat := by rwa [State.frameText_mlen hcfg hk]
  rw [State.hideText_readBit, State.packText_readBit_char hkt hj, State.hideText_readMsg]

/-- HIDE leaves the cells of `BIT` beyond the bits of the framed text. -/
theorem State.hideText_readBit_of_le {i : Nat} (hi : 8 * (s.keep + 4) ≤ i) : s.hideText.readBit i = s.readBit i := by
  have hbeyond : 8 * s.frameText.mlen.toNat ≤ i := by rwa [State.frameText_mlen hcfg hk]
  rw [State.hideText_readBit, State.packText_readBit_of_le hbeyond, State.frameText_readBit]

variable (hb : 8 * (s.keep + 4) ≤ s.cfg.bitSize)
include hb

/-- The framed text fits the bits that HIDE checks for. -/
theorem State.frameText_bits_fit : 8 * s.frameText.mlen.toNat ≤ s.frameText.cfg.bitSize := by
  rwa [State.frameText_mlen hcfg hk]

/-- `BLEN` after PACK of the framed text is the length of its bits. -/
theorem State.packText_frameText_blen : s.frameText.packText.blen.toNat = 8 * (s.keep + 4) := by
  rw [State.packText_blen (s := s.frameText) hcfg (State.frameText_bits_fit hcfg hk hb), State.frameText_mlen hcfg hk]

/-- HIDE leaves that `BLEN`. -/
theorem State.hideText_blen_toNat : s.hideText.blen.toNat = 8 * (s.keep + 4) := by
  rw [State.hideText_blen, State.packText_frameText_blen hcfg hk hb]

/-- The bit sequence after HIDE is `TextToBits` of the framed text. -/
theorem State.hideText_bits : s.hideText.bits = textToBits s.frameText.text := by
  have hsame : s.hideText.bits = s.frameText.packText.bits := by simp [State.hideText, State.bits, State.bitsUpTo]
  rw [hsame, State.packText_bits (s := s.frameText) hcfg (State.frameText_bits_fit hcfg hk hb)]

/-- The number of bits that ENCB writes as a part of HIDE. -/
theorem State.packText_frameText_budget :
    min s.frameText.packText.blen.toNat s.frameText.packText.nc = min (8 * (s.keep + 4)) s.nc := by
  rw [State.packText_frameText_blen hcfg hk hb, State.packText_nc, State.frameText_nc]

/-- HIDE gives the channel of every scan index that has a bit the parity of that bit. -/
theorem State.hideText_readPix {k : Nat} (hscan : k < min (8 * (s.keep + 4)) s.nc) :
    s.hideText.readPix (scanAddr s.cfg k) = setParity (s.readPix (scanAddr s.cfg k)) (s.hideText.readBit k) := by
  have hwritten := State.encodeBits_readPix (s := s.frameText.packText) (k := k)
  rw [State.packText_frameText_budget hcfg hk hb, State.packText_cfg, State.frameText_cfg, State.packText_readPix,
    State.frameText_readPix, ← State.hideText_readBit] at hwritten
  exact hwritten hcfg.1 hscan

/-- HIDE leaves every cell that is of no scan index with a bit. -/
theorem State.hideText_readPix_unwritten {a : Nat}
    (ha : ∀ k, k < min (8 * (s.keep + 4)) s.nc → a ≠ scanAddr s.cfg k) : s.hideText.readPix a = s.readPix a := by
  have hunwritten := State.encodeBits_readPix_unwritten (s := s.frameText.packText) (a := a)
  rw [State.packText_frameText_budget hcfg hk hb, State.packText_cfg, State.frameText_cfg, State.packText_readPix,
    State.frameText_readPix] at hunwritten
  exact hunwritten ha

end

/-- Settles O22: a check that fails is the first one, and the writes are those of FRAME, then of PACK of the framed
text, then of ENCB of its bits. -/
theorem hideEncodesTheMessage : Obligations.HideEncodesTheMessage := by
  refine ⟨decode_encode .hide, fun s keep hcfg hkeep => ?_⟩
  obtain rfl : keep = s.keep := hkeep
  refine ⟨fun hg => ?_, fun hg => ⟨fun hm => ?_, fun hm hk => ?_, fun hm hk hb => ?_,
    fun hm hk hb => ⟨fun j hj hbad hmin => ?_, fun ht => ?_⟩⟩⟩
  · have hcheck : checksOf .hide s = some (.geom, 0) := by
      rw [checksOf, State.hideCheck, State.geomCheck_of_lt hg]; rfl
    exact exec_of_failing_check hcheck
  · have hcheck : checksOf .hide s = some (.msgRange, 0) := by
      rw [checksOf, State.hideCheck, s.geomCheck_none.mpr hg, State.textCheck_of_lt hm]; rfl
    exact exec_of_failing_check hcheck
  · have hcheck : checksOf .hide s = some (.msgRange, 1) := by
      rw [checksOf, State.hideCheck, s.geomCheck_none.mpr hg, s.textCheck_none.mpr hm, State.textRoom_of_lt hk]; rfl
    exact exec_of_failing_check hcheck
  · have hcheck : checksOf .hide s = some (.bitRange, 1) := by
      rw [checksOf, State.hideCheck, s.geomCheck_none.mpr hg, s.textCheck_none.mpr hm, (s.textRoom_none _).mpr hk,
        State.bitsRoom_of_lt hb]
      rfl
    exact exec_of_failing_check hcheck
  · have hcheck : checksOf .hide s = some (.char, BitVec.ofNat 32 j) := by
      rw [checksOf, State.hideCheck, s.geomCheck_none.mpr hg, s.textCheck_none.mpr hm, (s.textRoom_none _).mpr hk,
        (s.bitsRoom_none _).mpr hb, State.charCheck_eq_some hj hbad hmin]
      rfl
    exact exec_of_failing_check hcheck
  · have hrest : s.sameRest (s.hideText.succeed s.hideDropped false) := by simp [State.sameRest]
    have hmlen : s.hideText.mlen.toNat = s.keep + 4 := by rw [State.hideText_mlen, State.frameText_mlen hcfg hk]
    have hbits (k j : Nat) (hkeep : k < s.keep + 4) (hj : j < 8) :
        (s.hideText.readBit (8 * k + j)).toNat = (s.hideText.readMsg k).toNat / 2 ^ (7 - j) % 2 := by
      rw [State.hideText_readBit_char hcfg hk hkeep hj, charBit_toNat]
    have hpix (k : Nat) (hscan : k < min (8 * (s.keep + 4)) s.nc) :
        (s.hideText.readPix (scanAddr s.cfg k)).toNat =
          parityRule (s.readPix (scanAddr s.cfg k)).toNat (s.hideText.readBit k).toNat := by
      rw [State.hideText_readPix hcfg hk hb hscan, setParity_toNat]
    obtain ⟨hstop0, hstop1, hstop2, hstop3⟩ := s.hideText_readMsg_terminator
    rw [← s.hideDropped_eq]
    refine ⟨_, exec_hide hg hm hk hb ht, State.succeed_succeeded .., hrest, ?_⟩
    simp only [State.succeed_mlen, State.succeed_blen, State.succeed_readMsg, State.succeed_readBit,
      State.succeed_readPix]
    exact ⟨hmlen, State.hideText_blen_toNat hcfg hk hb, hstop0, hstop1, hstop2, hstop3,
      fun _ => State.hideText_readMsg_other, hbits, fun _ => State.hideText_readBit_of_le hcfg hk, hpix,
      fun _ => State.hideText_readPix_unwritten hcfg hk hb⟩

/-! ## A command after another's success -/

/-- The end of a command leaves nothing of the end of the command before it (R75). -/
theorem State.succeed_succeed (s : State) (trunc found trunc' found' : Bool) :
    (s.succeed trunc found).succeed trunc' found' = s.succeed trunc' found' := rfl

/-- The encoder's scan neither reads nor writes what the end of a command writes. -/
theorem State.encodeFrom_succeed (s : State) (trunc found : Bool) (k : Nat) (bs : List Bit) :
    (s.succeed trunc found).encodeFrom k bs = (s.encodeFrom k bs).succeed trunc found := by
  induction bs generalizing s k with
  | nil => rfl
  | cons b bs ih =>
    exact ih (s.writePix (scanAddr s.cfg k) (setParity (s.readPix (scanAddr s.cfg k)) b)) (k + 1)

/-- ENCB's writes neither read nor write what the end of a command writes (R106). -/
theorem State.encodeBits_succeed (s : State) (trunc found : Bool) :
    (s.succeed trunc found).encodeBits = s.encodeBits.succeed trunc found :=
  State.encodeFrom_succeed s trunc found 0 _

/-- UNFRAME's writes read nothing of what the end of a command writes, and write it anew (R124). -/
theorem State.unframeText_succeed (s : State) (trunc found : Bool) :
    (s.succeed trunc found).unframeText = s.unframeText := by
  cases h : findStop s.text with
  | none => rw [State.unframeText_of_none h, State.unframeText_of_none (s := s.succeed trunc found) h]; rfl
  | some r => rw [State.unframeText_of_some h, State.unframeText_of_some (s := s.succeed trunc found) h]; rfl

/-- No check reads what the end of a command writes. -/
theorem checksOf_succeed (i : Instr) (s : State) (trunc found : Bool) :
    checksOf i (s.succeed trunc found) = checksOf i s := by
  cases i <;> rfl

/-- No effect reads what the end of a command writes, and each writes it anew (R75). -/
theorem effectOf_succeed (i : Instr) (s : State) (trunc found : Bool) :
    effectOf i (s.succeed trunc found) = effectOf i s := by
  cases i with
  | encb => rw [effectOf, State.encodeBits_succeed]; rfl
  | hide =>
    have hwrites := congrArg (State.succeed · s.hideDropped false)
      (s.frameText.packText.encodeBits_succeed trunc found)
    exact hwrites.trans (State.succeed_succeed ..)
  | unframe => exact s.unframeText_succeed trunc found
  | reveal => exact s.decodeImage.unpackBits.unframeText_succeed trunc found
  | nop | cap | pack | unpack | decb | frame => rfl

/-- A command does the same whatever success was reported before it. -/
theorem exec_succeed (i : Instr) (s : State) (trunc found : Bool) :
    exec i (s.succeed trunc found) = exec i s := by
  rw [exec_eq, exec_eq, checksOf_succeed, effectOf_succeed]
  rcases checksOf i s with _ | ⟨e, info⟩ <;> rfl

/-! ## REVEAL (R132) -/

/-- REVEAL has its effect when its three checks pass. -/
theorem exec_reveal {s : State} (hg : s.np * s.cfg.nch ≤ s.cfg.pixSize) (hm : s.capv ≤ s.cfg.msgSize)
    (hb : s.nc ≤ s.cfg.bitSize) : exec .reveal s = .next s.decodeImage.unpackBits.unframeText :=
  exec_of_checks (s.revealCheck_none.mpr ⟨hg, hm, hb⟩)

/-- Where `Find` gives an index, UNFRAME succeeds with `FOUND = 1`. -/
theorem State.unframeText_succeeded_of_some {s : State} {r : Nat} (h : findStop s.text = some r) :
    s.unframeText.succeeded false true := by
  rw [State.unframeText_of_some h]
  exact State.succeed_succeeded ..

/-- Where `Find` gives nothing, UNFRAME succeeds with `FOUND = 0`. -/
theorem State.unframeText_succeeded_of_none {s : State} (h : findStop s.text = none) :
    s.unframeText.succeeded false false := by
  rw [State.unframeText_of_none h]
  exact State.succeed_succeeded ..

section
variable {s : State} (hcfg : s.cfg.ok) (hb : s.nc ≤ s.cfg.bitSize)
include hcfg hb

/-- After DECB the bit sequence is that of the image (R116). -/
theorem State.decodeImage_bits : s.decodeImage.bits = s.imageBits :=
  List.ext_getElem (by simp [State.decodeImage_blen hcfg hb]) fun k hk hk' => by
    rw [State.imageBits_length] at hk'
    rw [State.bits_getElem, State.decodeImage_readBit hk', State.imageBits_getElem]

/-- The text that UNPACK finds in the bits of the image. -/
theorem State.unpackBits_decodeImage_text : s.decodeImage.unpackBits.text = bitsToText s.imageBits := by
  rw [State.unpackBits_text, State.decodeImage_bits hcfg hb]

/-- The `NC` bits of the image make `CAPV` characters (R32). -/
theorem State.decodeImage_blen_div : s.decodeImage.blen.toNat / 8 = s.capv := by
  rw [State.decodeImage_blen hcfg hb, State.capv]

/-- The decoded text is as long as the capacity. -/
theorem State.unpackBits_decodeImage_mlen : s.decodeImage.unpackBits.mlen.toNat = s.capv := by
  rw [State.unpackBits_mlen, State.decodeImage_blen_div hcfg hb]

/-- A character of the decoded text is the value of its eight bits (R92). -/
theorem State.unpackBits_decodeImage_readMsg_toNat {k : Nat} (hk : k < s.capv) :
    (s.decodeImage.unpackBits.readMsg k).toNat = s.decodeImage.bitsValue k := by
  rw [← State.decodeImage_blen_div hcfg hb] at hk
  have hkt : k < (bitsToText s.decodeImage.bits).length := by rwa [bitsToText_length, State.bits_length]
  rw [State.unpackBits_readMsg hkt, bitsToText_getElem_toNat hkt, State.chunkValue_bits hk]

/-- UNFRAME writes no cell, so the terminator stands in the cells that REVEAL leaves where it stands in the decoded
text. -/
theorem State.stopAt_revealText {r : Nat} : s.decodeImage.unpackBits.unframeText.stopAt s.capv r ↔
    stopStands s.decodeImage.unpackBits.text r := by
  rw [State.stopStands_text, State.unpackBits_decodeImage_mlen hcfg hb]
  simp only [State.stopAt, State.unframeText_readMsg]

/-- Without a terminator in the decoded text, REVEAL leaves the whole of it (R137). -/
theorem State.revealText_mlen_of_none (h : findStop s.decodeImage.unpackBits.text = none) :
    s.decodeImage.unpackBits.unframeText.mlen.toNat = s.capv := by
  rw [State.unframeText_of_none h, State.succeed_mlen, State.unpackBits_decodeImage_mlen hcfg hb]

end

/-- Settles O23: a check that fails is the first one, and the writes are those of DECB, then of UNPACK of its bits,
then of UNFRAME, which writes no cell. -/
theorem revealDecodesTheImage : Obligations.RevealDecodesTheImage := by
  refine ⟨decode_encode .reveal, fun s hcfg => ⟨fun hg => ?_, fun hg => ⟨fun hm => ?_, fun hm hb => ?_,
    fun hm hb => ?_⟩⟩⟩
  · have hcheck : checksOf .reveal s = some (.geom, 0) := by
      rw [checksOf, State.revealCheck, State.geomCheck_of_lt hg]; rfl
    exact exec_of_failing_check hcheck
  · have hcheck : checksOf .reveal s = some (.msgRange, 1) := by
      rw [checksOf, State.revealCheck, s.geomCheck_none.mpr hg, State.textRoom_of_lt hm]; rfl
    exact exec_of_failing_check hcheck
  · have hcheck : checksOf .reveal s = some (.bitRange, 1) := by
      rw [checksOf, State.revealCheck, s.geomCheck_none.mpr hg, (s.textRoom_none _).mpr hm, State.bitsRoom_of_lt hb]
      rfl
    exact exec_of_failing_check hcheck
  · refine ⟨_, exec_reveal hg hm hb, by simp [State.sameRest], by simp [State.samePix], ?_, fun k hk => ?_,
      fun i hi => ?_, fun k hk => ?_, fun j hj => ?_, fun r ⟨hr, hleast⟩ => ?_, fun hnone => ?_⟩
    · rw [State.unframeText_blen, State.unpackBits_blen, State.decodeImage_blen hcfg hb]
    · rw [State.unframeText_readBit, State.unpackBits_readBit, State.decodeImage_readBit_toNat hk, scanAddr]
    · rw [State.unframeText_readBit, State.unpackBits_readBit, State.decodeImage_readBit_of_le hi]
    · simpa [State.bitsValue] using State.unpackBits_decodeImage_readMsg_toNat hcfg hb hk
    · rw [← State.decodeImage_blen_div hcfg hb] at hj
      rw [State.unframeText_readMsg, State.unpackBits_readMsg_of_le hj, State.decodeImage_readMsg]
    · simp only [State.stopAt_revealText hcfg hb] at hr hleast
      have hfind := findStop_eq_some.mpr ⟨hr, hleast⟩
      exact ⟨State.unframeText_succeeded_of_some hfind, State.unframeText_mlen_of_some hfind⟩
    · simp only [State.stopAt_revealText hcfg hb] at hnone
      have hfind := findStop_eq_none.mpr hnone
      exact ⟨State.unframeText_succeeded_of_none hfind, State.revealText_mlen_of_none hcfg hb hfind⟩

/-- Settles O45: `Find` gives nothing in the decoded text, so UNFRAME keeps the whole of it. -/
theorem revealWithoutMessage : Obligations.RevealWithoutMessage := by
  intro s t hcfg ht herr hnone
  obtain ⟨hcheck, rfl⟩ := exec_succeeds ht herr
  obtain ⟨-, -, hb⟩ := s.revealCheck_none.mp hcheck
  have htext := State.unpackBits_decodeImage_text hcfg hb
  rw [← htext] at hnone
  obtain ⟨-, -, -, hfound, -⟩ := State.unframeText_succeeded_of_none hnone
  refine ⟨hfound, State.revealText_mlen_of_none hcfg hb hnone, ?_⟩
  rw [← htext, effectOf, State.unframeText_text, beforeStop_of_none hnone]

/-! ## HIDE and REVEAL against their parts (R131, R132) -/

/-- Settles O40: the checks of the parts are among those of HIDE, and each part does what it would do without the
success that the part before it reported. -/
theorem hideEqualsItsParts : Obligations.HideEqualsItsParts := by
  intro s t hcfg ht herr
  obtain ⟨hcheck, rfl⟩ := exec_succeeds ht herr
  obtain ⟨hg, hm, hk, hb, hchars⟩ := s.hideCheck_none.mp hcheck
  have hmlen := State.frameText_mlen hcfg hk
  have hblen := State.packText_frameText_blen hcfg hk hb
  have hpack := exec_pack (s := s.frameText) (hmlen.trans_le hk) (State.frameText_bits_fit hcfg hk hb)
    (State.frameText_textOk hcfg hk hchars)
  have hencb := exec_encb (s := s.frameText.packText) (by simpa using hg) (hblen.trans_le (by simpa using hb))
  have hdropped : s.frameText.packText.bitsDropped = decide (s.nc < 8 * (s.keep + 4)) := by
    rw [State.bitsDropped, hblen, State.packText_nc, State.frameText_nc]
  rw [hdropped] at hencb
  rw [effectOf, State.hideText]
  generalize s.frameText.packText.encodeBits = written at hencb ⊢
  exact ⟨_, _, _, exec_frame hm hk, (exec_succeed ..).trans hpack, (exec_succeed ..).trans hencb, rfl, rfl, rfl, rfl,
    rfl, rfl⟩

/-- Settles O41: the checks of the parts follow from those of REVEAL, and each part does what it would do without the
success that the part before it reported. -/
theorem revealEqualsItsParts : Obligations.RevealEqualsItsParts := by
  intro s t hcfg ht herr
  obtain ⟨hcheck, rfl⟩ := exec_succeeds ht herr
  obtain ⟨hg, hm, hb⟩ := s.revealCheck_none.mp hcheck
  have hunpack := exec_unpack (s := s.decodeImage) ((State.decodeImage_blen_div hcfg hb).trans_le hm)
    ((State.decodeImage_blen hcfg hb).trans_le hb)
  have hunframe := exec_unframe ((State.unpackBits_decodeImage_mlen hcfg hb).trans_le hm)
  exact ⟨_, _, exec_decb hg hb, (exec_succeed ..).trans hunpack, (exec_succeed ..).trans hunframe, rfl, rfl⟩

/-! ## HIDE of a message that fits the memories (R133) -/

/-- HIDE keeps at most the message. -/
theorem State.keep_le_mlen (s : State) : s.keep ≤ s.mlen.toNat := keepLen_le _ _

/-- A message that fits the capacity with its terminator is kept whole (R122). -/
theorem State.keep_eq_mlen {s : State} (h : s.mlen.toNat + 4 ≤ s.capv) : s.keep = s.mlen.toNat := by
  rw [State.keep, keepLen_of_four_le (by omega)]
  omega

/-- In regime A every bit of the framed message has a channel (R122). -/
theorem State.framed_bits_le_nc {s : State} (hcap : 4 ≤ s.capv) : 8 * (s.keep + 4) ≤ s.nc :=
  (Nat.mul_le_mul_left 8 (keepLen_add_four_le _ hcap)).trans (Nat.mul_div_le s.nc 8)

/-- In regime A `TRUNC` after HIDE tells that characters were dropped (R130). -/
theorem State.hideDropped_of_four_le {s : State} (hcap : 4 ≤ s.capv) :
    s.hideDropped = decide (s.keep < s.mlen.toNat) := by
  have hfit := State.framed_bits_le_nc hcap
  rw [State.hideDropped_eq, decide_eq_decide]
  omega

/-- A message that fits the capacity with its terminator loses nothing (R130). -/
theorem State.hideDropped_eq_false {s : State} (h : s.mlen.toNat + 4 ≤ s.capv) : s.hideDropped = false := by
  rw [State.hideDropped_of_four_le (by omega), State.keep_eq_mlen h]
  exact decide_eq_false (lt_irrefl _)

/-- Under `Fits` the framed message fits `MSG` and its bits fit `BIT`. -/
theorem State.framed_fits {s : State} (h : s.fits) :
    s.keep + 4 ≤ s.cfg.msgSize ∧ 8 * (s.keep + 4) ≤ s.cfg.bitSize := by
  obtain ⟨-, -, -, -, hm, hb, -⟩ := h
  have hle := s.keep_le_mlen
  omega

/-- Under `Fits` HIDE succeeds. -/
theorem exec_hide_of_fits {s : State} {trunc : Bool} (h : s.fits) (htrunc : s.hideDropped = trunc) :
    exec .hide s = .next (s.hideText.succeed trunc false) := by
  subst htrunc
  obtain ⟨hk, hb⟩ := State.framed_fits h
  obtain ⟨-, hg, -, -, hm, -, ht⟩ := h
  exact exec_hide hg (by omega) hk hb ht

/-- Settles O44: the message is kept whole, so its framed bits are as many as full characters fit `NC` channels. -/
theorem hideAtTheBoundary : Obligations.HideAtTheBoundary := by
  intro s hfits hcapv
  obtain ⟨hk, hb⟩ := State.framed_fits hfits
  have hcfg : s.cfg.ok := hfits.1
  have hkeep : s.keep = s.mlen.toNat := State.keep_eq_mlen hcapv.ge
  have hbudget : 8 * s.capv ≤ s.nc := Nat.mul_div_le s.nc 8
  refine ⟨_, exec_hide_of_fits hfits (State.hideDropped_eq_false hcapv.ge), State.succeed_succeeded .., fun k hk8 => ?_,
    fun k hk8 _ => ?_, ?_⟩
  · have hbit := State.hideText_readBit_char hcfg hk (k := k / 8) (j := k % 8) (by omega) (Nat.mod_lt _ (by decide))
    rw [Nat.div_add_mod] at hbit
    rw [State.succeed_readPix, State.hideText_readPix hcfg hk hb (by omega), setParity_parity, hbit, charBit_toNat,
      State.succeed_readMsg]
  · rw [State.succeed_readPix]
    refine State.hideText_readPix_unwritten hcfg hk hb fun i hi haddr => ?_
    have heq := scanAddr_inj hcfg.1 haddr
    omega
  · rw [State.capv]
    omega

/-! ## HIDE and then REVEAL (R134, R135) -/

/-- Decoding gives back an encoded text of characters below 256, and then what the further bits decode to (R94). -/
theorem bitsToText_textToBits_append {t : List CodePoint} (ht : ∀ c ∈ t, c.toNat < 256) (b : List Bit) :
    bitsToText (textToBits t ++ b) = t ++ bitsToText b := by
  induction t with
  | nil => rfl
  | cons c t ih =>
    obtain ⟨hc, ht⟩ := List.forall_mem_cons.mp ht
    rw [textToBits_cons, List.append_assoc, bitsToText_bits8_append hc, ih ht, List.cons_append]

/-- A terminator found in a text is the one found when the text goes on. -/
theorem findStop_append_of_some {t : List CodePoint} {r : Nat} (h : findStop t = some r) (u : List CodePoint) :
    findStop (t ++ u) = some r := by
  have hin := findStop_add_four_le h
  obtain ⟨hr, hleast⟩ := findStop_eq_some.mp h
  refine findStop_eq_some.mpr ⟨(stopStands_append hin u).mpr hr, fun j hj => ?_⟩
  rw [stopStands_append (by omega)]
  exact hleast j hj

/-- A state whose text begins as that of `s` reads the same cells of `MSG` there. -/
theorem State.readMsg_of_text_eq_take {s t : State} {n j : Nat} (h : t.text = s.text.take n) (hn : n ≤ s.mlen.toNat)
    (hj : j < n) : t.readMsg j = s.readMsg j := by
  have hjs : j < s.text.length := by
    rw [State.text_length]
    omega
  have hjn : j < (s.text.take n).length := by rw [List.length_take]; omega
  have hjt : j < t.text.length := by rwa [h]
  calc t.readMsg j
    _ = t.text[j] := (t.text_getElem j hjt).symm
    _ = (s.text.take n)[j] := List.getElem_of_eq h hjt
    _ = s.text[j] := List.getElem_take
    _ = s.readMsg j := s.text_getElem j hjs

section
variable {s : State} (hfits : s.fits) (hcap : 4 ≤ s.capv)
include hfits hcap

/-- The bits of the image after HIDE begin with those of the framed text (R117). -/
theorem State.hideText_imageBits_take :
    s.hideText.imageBits.take (8 * (s.keep + 4)) = textToBits s.frameText.text := by
  obtain ⟨hk, hb⟩ := State.framed_fits hfits
  have hcfg : s.cfg.ok := hfits.1
  have hfit := State.framed_bits_le_nc hcap
  have hblen := State.hideText_blen_toNat hcfg hk hb
  rw [← State.hideText_bits hcfg hk hb]
  refine List.ext_getElem (by simp [hblen, hfit]) fun k hk' hk'' => ?_
  have hscan : k < min (8 * (s.keep + 4)) s.nc := by simpa using hk'
  rw [List.getElem_take, State.imageBits_getElem, State.bits_getElem, State.hideText_cfg,
    State.hideText_readPix hcfg hk hb hscan, setParity_parity, BitVec.ofNat_toNat, BitVec.setWidth_eq]

/-- The text decoded from the image after HIDE begins with the characters kept and the terminator. -/
theorem State.hideText_decodedText : ∃ rest,
    bitsToText s.hideText.imageBits = s.text.take s.keep ++ terminator ++ rest := by
  obtain ⟨hk, -⟩ := State.framed_fits hfits
  have ⟨hcfg, _, _, _, _, _, ht⟩ := hfits
  refine ⟨bitsToText (s.hideText.imageBits.drop (8 * (s.keep + 4))), ?_⟩
  have hchars := State.text_lt (State.frameText_textOk hcfg hk ht)
  rw [← State.frameText_text hcfg hk, ← bitsToText_textToBits_append hchars,
    ← State.hideText_imageBits_take hfits hcap, List.take_append_drop]

/-- REVEAL of what HIDE writes in regime A gives the characters kept, when no terminator stands among them. -/
theorem exec_reveal_hideText (hnone : findStop (s.text.take s.keep) = none) : ∃ u, exec .reveal s.hideText = .next u ∧
    u.succeeded false true ∧ u.mlen.toNat = s.keep ∧ ∀ j, j < s.keep → u.readMsg j = s.readMsg j := by
  have ⟨hcfg, hg, hb, hm, _⟩ := hfits
  obtain ⟨rest, hrest⟩ := State.hideText_decodedText hfits hcap
  have hkept : (s.text.take s.keep).length = s.keep := by simpa using s.keep_le_mlen
  have hdecoded : s.hideText.decodeImage.unpackBits.text = s.text.take s.keep ++ terminator ++ rest := by
    rw [State.unpackBits_decodeImage_text (by simpa using hcfg) (by simpa using hb), hrest]
  have hfind : findStop s.hideText.decodeImage.unpackBits.text = some s.keep := by
    have hframed := findStop_append_terminator_eq_length.mpr hnone
    rw [hkept] at hframed
    rw [hdecoded, findStop_append_of_some hframed]
  have htext : s.hideText.decodeImage.unpackBits.unframeText.text = s.text.take s.keep := by
    rw [State.unframeText_text, beforeStop_of_some hfind, hdecoded, List.append_assoc, List.take_left' hkept]
  exact ⟨_, exec_reveal (by simpa using hg) (by simpa using hm) (by simpa using hb),
    State.unframeText_succeeded_of_some hfind, State.unframeText_mlen_of_some hfind,
    fun _ => State.readMsg_of_text_eq_take htext s.keep_le_mlen⟩

end

/-- Settles O42: the whole message is kept, so it is what REVEAL gives. -/
theorem hideRevealRoundTrip : Obligations.HideRevealRoundTrip := by
  intro s hfits hfit hnone
  have hkeep := State.keep_eq_mlen hfit
  have hwhole : s.text.take s.keep = s.text := List.take_of_length_le (by rw [State.text_length, hkeep])
  obtain ⟨u, hreveal, hsucc, hmlen, hmsg⟩ := exec_reveal_hideText hfits (by omega) (by rwa [hwhole])
  rw [hkeep] at hmlen hmsg
  exact ⟨_, u, exec_hide_of_fits hfits (State.hideDropped_eq_false hfit), (exec_succeed ..).trans hreveal,
    State.succeed_succeeded .., hsucc, BitVec.eq_of_toNat_eq hmlen, hmsg⟩

/-- Settles O43: the first `CAPV - 4` characters are kept, so they are what REVEAL gives. -/
theorem hideRevealTruncates : Obligations.HideRevealTruncates := by
  intro s hfits hcap hlong hnone
  have hkeep : s.keep = s.capv - 4 := by
    rw [State.keep, keepLen_of_four_le hcap]
    omega
  rw [← hkeep] at hlong hnone ⊢
  have hdropped : s.hideDropped = true := by rw [State.hideDropped_of_four_le hcap, decide_eq_true hlong]
  have hstored : s.hideText.text = s.text.take s.keep ++ terminator := by
    rw [State.hideText_text, State.frameText_text hfits.1 (State.framed_fits hfits).1]
  obtain ⟨u, hreveal, hsucc, hmlen, hmsg⟩ := exec_reveal_hideText hfits hcap hnone
  exact ⟨_, u, exec_hide_of_fits hfits hdropped, (exec_succeed ..).trans hreveal, State.succeed_succeeded ..,
    (State.succeed_text ..).trans hstored, hsucc, hmlen, hmsg⟩

end Sys2Proof.Machine
end

section
/-! PROOF. NOP (46_system.md): the report it clears and what it leaves unchanged (O14). -/

namespace Sys2Proof.Machine

/-- After a success that sets neither `TRUNC` nor `FOUND` the host reads 0 from `STATUS` (R23, R75). -/
theorem State.statusWord_succeed_false_false (s : State) : (s.succeed false false).statusWord = 0 := by
  simp [State.statusWord, State.busy]

/-- NOP makes no check, so it always has its effect (R138). -/
theorem exec_nop (s : State) : exec .nop s = .next (effectOf .nop s) := exec_of_checks rfl

/-- Settles O14: the effect of NOP is the success of its completion, after no write at all. -/
theorem nopClearsTheReport : Obligations.NopClearsTheReport :=
  ⟨decode_encode .nop, fun s => ⟨effectOf .nop s, exec_nop s, rfl, s.statusWord_succeed_false_false⟩⟩

end Sys2Proof.Machine
end

section
/-! PROOF. The exceptions (60_exceptions.md): the idle machine (O13), that a failed completion changes nothing but the
report (O25), and that the report is the first cause in the fixed order (O24). -/

namespace Sys2Proof.Machine

/-! ## The idle machine (R153) -/

/-- Settles O13: with no command latched it is the host's turn, and the host has nothing pending. -/
theorem idleKeepsState : Obligations.IdleKeepsState := by
  intro s hidle hscript
  rw [step_host (by simp [State.engineTurn, hidle]), hostTurn, hscript]

/-! ## How a completion ends -/

/-- The completion of a word raises an error on the state as it was, or has the effect of the command that the word is
(R75, R146). -/
theorem completeWord_cases {c : Word} {s t : State} (ht : completeWord c s = .next t) :
    (∃ e info, t = s.raise e info) ∨ ∃ i, t = effectOf i s := by
  simp only [completeWord] at ht
  split at ht
  · rcases exec_cases ht with ⟨e, info, -, h⟩ | ⟨-, h⟩
    · exact .inl ⟨e, info, h⟩
    · exact .inr ⟨_, h⟩
  · exact .inl ⟨_, _, (Host.Outcome.next.inj ht).symm⟩

/-- The effect of a command is a success (R75). -/
@[simp] theorem effectOf_err (i : Instr) (s : State) : (effectOf i s).err = false := by
  obtain ⟨_, _, ⟨-, herr, -⟩, -⟩ := effectOf_succeeded i s
  exact herr

/-- Settles O25: a completion with `ERR = 1` had no command's effect, so it raised an error on the old state. -/
theorem failedCommandReportsOnly : Obligations.FailedCommandReportsOnly := by
  intro s t hturn ht herr
  obtain ⟨c, hc⟩ := engineTurn_latched hturn
  rw [step_engine hturn hc] at ht
  rcases completeWord_cases ht with ⟨e, info, rfl⟩ | ⟨i, rfl⟩
  · exact ⟨rfl, e.code_bounds⟩
  · simp at herr

/-! ## The first cause (R145) -/

/-- `check` reports the first of `causes`, which are given by code and info and have rank `lo` or more in the order of
R145: it passes when there is none, and else raises the cause that every other one comes strictly after. -/
structure ReportsFirst (lo : Nat) (check : Option (Err × Word)) (causes : Nat → Nat → Prop) : Prop where
  rank_ge : ∀ {code info}, causes code info → lo ≤ errRank code info
  pass : check = none → ∀ {code info}, ¬causes code info
  fail : ∀ {e v}, check = some (e, v) → causes e.code.toNat v.toNat ∧ ∀ {code info}, causes code info →
    (code = e.code.toNat ∧ info = v.toNat) ∨ errRank e.code.toNat v.toNat < errRank code info

/-- The causes of a check that has the one report `e` with `v`, under the condition `P`. -/
abbrev causeIf (e : Err) (v : Word) (P : Prop) (code info : Nat) : Prop := code = e.code.toNat ∧ info = v.toNat ∧ P

section
variable {lo : Nat} {b : Option (Err × Word)} {A B : Nat → Nat → Prop}
  {e : Err} {v : Word} {P : Prop} [Decidable P]

/-- A command without checks has no cause. -/
theorem reportsFirst_none : ReportsFirst lo none fun _ _ => False := ⟨nofun, fun _ => id, nofun⟩

theorem ReportsFirst.congr (h : ReportsFirst lo b A) (hAB : ∀ code info, B code info ↔ A code info) :
    ReportsFirst lo b B := by
  obtain rfl : B = A := funext₂ fun code info => propext (hAB code info)
  exact h

/-- A check of one condition before checks whose causes have higher ranks. -/
theorem ReportsFirst.cons (h : ReportsFirst lo b B) (hlt : errRank e.code.toNat v.toNat < lo) :
    ReportsFirst (errRank e.code.toNat v.toNat) ((if P then some (e, v) else none) <|> b)
      fun code info => causeIf e v P code info ∨ B code info where
  rank_ge := by
    rintro code info (⟨rfl, rfl, -⟩ | hB)
    · exact le_rfl
    · exact hlt.le.trans (h.rank_ge hB)
  pass hnone := by
    obtain ⟨hP, hb⟩ := (orElse_eq_none _ _).mp hnone
    rintro code info (⟨-, -, hcause⟩ | hB)
    · simp [hcause] at hP
    · exact h.pass hb hB
  fail hsome := by
    by_cases hP : P
    · obtain ⟨rfl, rfl⟩ : e = _ ∧ v = _ := by simpa [hP] using hsome
      refine ⟨.inl ⟨rfl, rfl, hP⟩, ?_⟩
      rintro code info (⟨hcode, hinfo, -⟩ | hB)
      · exact .inl ⟨hcode, hinfo⟩
      · exact .inr (hlt.trans_le (h.rank_ge hB))
    · obtain ⟨hfirst, hbefore⟩ := h.fail (by simpa [hP] using hsome)
      exact ⟨.inr hfirst, fun hcause => hbefore (hcause.resolve_left fun hhead => hP hhead.2.2)⟩

/-- A check of one condition. -/
theorem reportsFirst_ite :
    ReportsFirst (errRank e.code.toNat v.toNat) (if P then some (e, v) else none) (causeIf e v P) := by
  have h := (reportsFirst_none (lo := errRank e.code.toNat v.toNat + 1)).cons (P := P) (Nat.lt_succ_self _)
  simpa using h

end

/-- `info` is the index of the first character of 256 or more (R142). -/
abbrev State.firstBadAt (s : State) (info : Nat) : Prop :=
  info < s.mlen.toNat ∧ 256 ≤ (s.readMsg info).toNat ∧ ∀ j, j < info → (s.readMsg j).toNat < 256

/-- Only one character is the first bad one. -/
theorem State.firstBadAt_unique {s : State} {j k : Nat} (hj : s.firstBadAt j) (hk : s.firstBadAt k) : j = k := by
  obtain ⟨-, hjbad, hjmin⟩ := hj
  obtain ⟨-, hkbad, hkmin⟩ := hk
  rcases Nat.lt_trichotomy j k with hlt | heq | hgt
  · exact absurd (hkmin j hlt) (by omega)
  · exact heq
  · exact absurd (hjmin k hgt) (by omega)

/-- The check of the characters reports the first bad one, the last cause in the order (R142). -/
theorem State.charCheck_reportsFirst (s : State) :
    ReportsFirst 4 s.charCheck fun code info => code = 2 ∧ s.firstBadAt info where
  rank_ge := by
    rintro code info ⟨rfl, -⟩
    exact le_rfl
  pass hnone := by
    rintro code info ⟨-, hlt, hbad, -⟩
    exact absurd (s.charCheck_none.mp hnone info hlt) (by omega)
  fail hsome := by
    obtain ⟨j, hlt, hbad, hmin, hreport⟩ := State.charCheck_some hsome
    obtain ⟨rfl, rfl⟩ := Prod.mk.inj hreport
    have hfirst : s.firstBadAt j := ⟨hlt, hbad, hmin⟩
    have hj : (BitVec.ofNat 32 j).toNat = j := Nat.mod_eq_of_lt (hlt.trans s.mlen.isLt)
    rw [hj]
    exact ⟨⟨rfl, hfirst⟩, fun hcause => .inl ⟨hcause.1, State.firstBadAt_unique hcause.2 hfirst⟩⟩

/-- The checks of every command report the first cause for which it can raise an error (R143, R144, R147). -/
theorem checksOf_reportsFirst (i : Instr) (s : State) : ∃ lo, ReportsFirst lo (checksOf i s) (raises i s) := by
  cases i with
  | nop | cap => exact ⟨0, reportsFirst_none.congr (by simp [raises])⟩
  | unframe => exact ⟨_, reportsFirst_ite.congr (by simp [raises, causeIf, Err.code])⟩
  | unpack | encb | decb | frame =>
    exact ⟨_, (reportsFirst_ite.cons (by decide)).congr
      (by simp [raises, causeIf, Err.code, State.np, State.keep])⟩
  | pack =>
    exact ⟨_, ((s.charCheck_reportsFirst.cons (by decide)).cons (by decide)).congr
      (by simp [raises, causeIf, Err.code])⟩
  | reveal =>
    exact ⟨_, ((reportsFirst_ite.cons (by decide)).cons (by decide)).congr
      (by simp [raises, causeIf, Err.code, State.np])⟩
  | hide =>
    exact ⟨_, ((((s.charCheck_reportsFirst.cons (by decide)).cons (by decide)).cons (by decide)).cons
      (by decide)).congr (by simp [raises, causeIf, Err.code, State.np, State.keep])⟩

/-- Settles O24: the first failing check is the cause that all others come strictly after, so a cause that comes no later
than any other is that one. -/
theorem reportedErrorIsFirst : Obligations.ReportedErrorIsFirst := by
  refine ⟨fun s c => step_of_illegal, fun i s => ?_⟩
  obtain ⟨lo, hchecks⟩ := checksOf_reportsFirst i s
  cases hcheck : checksOf i s with
  | none =>
    exact ⟨fun _ => ⟨_, exec_of_checks hcheck, effectOf_err i s⟩, fun _ _ hcause => absurd hcause (hchecks.pass hcheck)⟩
  | some report =>
    obtain ⟨hfirst, hbefore⟩ := hchecks.fail hcheck
    refine ⟨fun hnone => absurd hfirst (hnone _ _), fun code info hcause hleast => ?_⟩
    obtain ⟨rfl, rfl⟩ := (hbefore hcause).resolve_right (Nat.not_lt.mpr (hleast _ _ hfirst))
    rw [BitVec.ofNat_toNat, BitVec.ofNat_toNat, BitVec.setWidth_eq, BitVec.setWidth_eq]
    exact exec_of_failing_check hcheck

end Sys2Proof.Machine
end

section
/-! PROOF. Reset and hazards (70_reset_and_hazards.md): what the host may do while `BUSY = 1` (O10), the completion of an
issued command (O6), and which bits of `PIX` commands write (O49). -/

namespace Sys2Proof.Machine

/-! ## The host while `BUSY = 1` (R166) -/

/-- While `BUSY = 1` a read of `STATUS` only logs the status word (R166). -/
theorem step_readStatus_of_busy {s : State} {rest : List HostOp} (hbusy : s.busy = true)
    (hscript : s.script = .regRead 1 :: rest) : step s = .next ((s.setScript rest).logRead s.statusWord) :=
  step_of_busy hbusy hscript nofun

/-- Settles O10: bit 0 of the word read is `BUSY`, and any other register or memory access is refused. -/
theorem busyAllowsOnlyStatusRead : Obligations.BusyAllowsOnlyStatusRead := by
  intro s op rest hbusy hscript
  refine ⟨?_, fun hread hwait hreset => ?_⟩
  · rintro rfl
    obtain ⟨hbit, -⟩ := statusWordFields s
    exact ⟨step_readStatus_of_busy hbusy hscript, hbit.trans hbusy⟩
  · rw [step_of_busy hbusy hscript hwait]
    exact hostAccessBusy_refused _ hread hwait hreset

/-! ## The completion of an issued command (R171) -/

/-- The engine's step completes the latched word: `BUSY` is 0 after it, and the host's script is as before (R75). -/
theorem step_completes {s : State} (hturn : s.engineTurn = true) :
    ∃ t, step s = .next t ∧ t.busy = false ∧ t.script = s.script := by
  obtain ⟨c, hc⟩ := engineTurn_latched hturn
  obtain ⟨t, ht⟩ := completeWord_next c s
  refine ⟨t, (step_engine hturn hc).trans ht, ?_⟩
  rcases completeWord_cases ht with ⟨e, info, rfl⟩ | ⟨i, rfl⟩
  · exact ⟨rfl, rfl⟩
  · simp [State.busy]

/-- Settles O6, by induction on the number of reads: each leaves the command latched and the rest of the script to do, and
then it is the engine's turn, since the host waits (log entry 5). -/
theorem issuedCommandCompletes : Obligations.IssuedCommandCompletes := by
  intro s n rest hbusy hwait hscript
  induction n generalizing s with
  | zero =>
    obtain rfl : s.script = rest := hscript
    obtain ⟨t, ht, htidle, htscript⟩ := step_completes (s := s) (by simp [State.engineTurn, hbusy, hwait])
    exact ⟨t, run_step 0 s t ht, htidle, htscript⟩
  | succ n ih =>
    obtain ⟨t, ht, hdone⟩ := ih ((s.setScript (List.replicate n (.regRead 1) ++ rest)).logRead s.statusWord) hbusy rfl
    exact ⟨t, (run_step (n + 1) _ _ (step_readStatus_of_busy hbusy hscript)).trans ht, hdone⟩

/-! ## The bits of `PIX` that commands write (R168) -/

/-- A command other than ENCB and HIDE writes no channel (R168). -/
theorem effectOf_readPix {i : Instr} (hencb : i ≠ .encb) (hhide : i ≠ .hide) (s : State) (a : Nat) :
    (effectOf i s).readPix a = s.readPix a := by
  cases i with
  | encb => exact absurd rfl hencb
  | hide => exact absurd rfl hhide
  | nop | cap | pack | unpack | decb | frame | unframe | reveal => simp [effectOf]

/-- The encoder's scan keeps bits 7:1 of every channel (R105). -/
theorem State.encodeFrom_readPix_div_two (s : State) (k a : Nat) (bs : List Bit) :
    ((s.encodeFrom k bs).readPix a).toNat / 2 = (s.readPix a).toNat / 2 := by
  induction bs generalizing s k with
  | nil => rfl
  | cons b bs ih =>
    rw [State.encodeFrom, ih, State.readPix_writePix]
    split
    case isTrue ha => rw [setParity_div_two, ha]
    case isFalse => rfl

/-- ENCB's writes keep bits 7:1 of every channel (R106). -/
theorem State.encodeBits_readPix_div_two (s : State) (a : Nat) :
    (s.encodeBits.readPix a).toNat / 2 = (s.readPix a).toNat / 2 :=
  State.encodeFrom_readPix_div_two s 0 a _

/-- Every command keeps bits 7:1 of every channel (R168). -/
theorem effectOf_readPix_div_two (i : Instr) (s : State) (a : Nat) :
    ((effectOf i s).readPix a).toNat / 2 = (s.readPix a).toNat / 2 := by
  cases i with
  | encb => exact s.encodeBits_readPix_div_two a
  | hide => simpa [effectOf, State.hideText] using s.frameText.packText.encodeBits_readPix_div_two a
  | nop | cap | pack | unpack | decb | frame | unframe | reveal => simp [effectOf]

/-- Settles O49: an error raised writes no cell, and the effects of ENCB and HIDE write channels by `SetParity` alone. -/
theorem onlyBitZeroOfPixChanges : Obligations.OnlyBitZeroOfPixChanges := by
  intro i s t ht
  rcases exec_cases ht with ⟨e, info, -, rfl⟩ | ⟨-, rfl⟩
  · exact ⟨fun _ _ _ => rfl, fun _ => rfl⟩
  · exact ⟨fun hencb hhide => effectOf_readPix hencb hhide s, effectOf_readPix_div_two i s⟩

end Sys2Proof.Machine
end
